-- ==== Sys2Proof/Word.lean ====
section
/-! DEFINITION. The word types of ANY-1 v3 (10 R20, R26, R27) and their plainest arithmetic. -/

namespace Sys2Proof

/-- A 64-bit machine word: a scalar register, a vector element, an address (10 R20, R26, R30). -/
abbrev Word := BitVec 64

/-- One byte of memory (20 R70). -/
abbrev Byte := BitVec 8

/-- The low `n` bits of a word, zero-extended: `zext_n` of 00 R9. -/
def Word.zextLow (n : Nat) (a : Word) : Word := (a.setWidth n).setWidth 64

/-- The low `n` bits of a word, sign-extended: `sext_n` of 00 R9. -/
def Word.sextLow (n : Nat) (a : Word) : Word := (a.setWidth n).signExtend 64

/-- 1 for true, 0 for false: the value a set or compare instruction writes (10 R32). -/
def Word.ofBool (b : Bool) : Word := if b then 1#64 else 0#64

end Sys2Proof
end

