-- ==== Sys2Proof/Config.lean ====
section
/-! DEFINITION. What an implementation of ANY-1 v3 fixes (00 R6, 93 section 3): `Config.Params` has one field for each
parameter, and the machine is a function of it: the states, the meanings and the step take it as the argument `P`.
`Config.default` has the spec's defaults (log 9). Here too are the values the spec leaves open, as constants without a
body, so that nothing can be proved of them. -/

namespace Sys2Proof.Machine

/-- The operating modes, lowest first (10 R33). -/
inductive Mode
  | user
  | supervisor
  | hypervisor
  | machine
  | debug
  deriving DecidableEq, Repr

/-- The registers CSR_MAP may bind to a CSR number (10 R43). -/
inductive NamedCsr
  | pmstack
  | cause (m : Mode)
  | badaddr (m : Mode)
  | eip
  | tvec (m : Mode)
  deriving DecidableEq, Repr

/-- The mode a two-bit field names: 0 user to 3 machine (10 R33, 46 R566). -/
def Mode.ofField (t : BitVec 2) : Mode :=
  match t.toNat with
  | 0 => .user
  | 1 => .supervisor
  | 2 => .hypervisor
  | _ => .machine

end Sys2Proof.Machine

namespace Sys2Proof.Config

open Machine

/-! ### The types of the parameters -/

/-- What an access does, an argument of TRANSLATE (20 R84). -/
inductive Access
  | load
  | store
  | fetch
  deriving DecidableEq, Repr

/-- Whether the byte at the lowest address is the low or the high byte of a value (20 R74). -/
inductive ByteOrder
  | little
  | big
  deriving DecidableEq, Repr

/-- Which end of a queue POPQ and PEEKQ read (46 R555). -/
inductive Discipline
  | fifo
  | lifo
  deriving DecidableEq, Repr

/-- What MORT and MXORT transpose (40 R212). -/
inductive Transpose
  | result
  | first
  | second
  deriving DecidableEq, Repr

/-- A rounding mode of binary floating point (42 R342). -/
inductive Rounding
  | nearestEven
  | nearestAway
  | towardZero
  | up
  | down
  deriving DecidableEq, Repr

/-- The graphics parameters: target size, clip switch, clip rectangle (43 R393). -/
structure Gfx where
  width : Nat
  height : Nat
  clipEnable : Bool
  x0 : Nat
  y0 : Nat
  x1 : Nat
  y1 : Nat
  deriving DecidableEq, Repr

/-- The arithmetic of one of the number formats that no document defines: the result for a function code, the operands
(one of a one-source operation, two of a two-source one, which share codes) and a rounding mode (42 R343). -/
abbrev NumberOps := BitVec 7 → List Word → Rounding → Word

/-- What the parameters that speak of the state see of it and CLDM_SEMANTICS may change (20 R84, 46 R566, 48 R705):
the architectural state, with vector registers, masks and queues as lists, whatever VLMAX and NQUEUE are. The pending
modifiers, the stalled WFI and the interrupt input are no part of it (DESIGN CHOICE, log 9). -/
structure View where
  x : Vector Word 32
  v : List (List Word)
  vm : List Nat
  vl : Word
  ip : Word
  pmstack : Word
  cause : Vector Word 5
  badaddr : Vector Word 5
  eip : Word
  tvec : Vector Word 5
  semaphore : Vector Bool 64
  csr : List (Nat × Word)
  tlb : List (Nat × Word)
  dcacheEnable : Bool
  queues : List (List Word)
  coeff : Vector Word 13
  plotLog : List (Word × BitVec 32)
  mem : List Host.Cell
  imem : List Host.Cell
  deriving DecidableEq, Repr

/-! ### Values the spec leaves open -/

/-- CAUSE_UNIMP (60 R731), a parameter without a default. The five codes are free values (log 4), safe. -/
opaque causeUnimp : BitVec 8

/-- CAUSE_PRIV (60 R731). -/
opaque causePriv : BitVec 8

/-- CAUSE_CHK (60 R731). -/
opaque causeChk : BitVec 8

/-- CAUSE_OVF (60 R731). -/
opaque causeOvf : BitVec 8

/-- CAUSE_DBZ (60 R731). -/
opaque causeDbz : BitVec 8

/-- The operations whose result is any value when the divisor is zero (40 R257). -/
inductive DivKind
  | div
  | divu
  | divsu
  | divr
  | rem
  | remu
  | remsu
  deriving DecidableEq, Repr

/-- The result of a division or remainder by zero that does not trap, a free value for each
operation and dividend (40 R257; log 5), safe. -/
opaque divByZero : DivKind → Word → Word

/-- The payload of EXI0 where EXI1 is present without it: the spec gives the constant only when the
words start at EXI0 (30 R125; log 11), safe. -/
opaque exiAbsent : BitVec 28

/-- The displacement under EXI words and a STRIDE word together, from STRIDE's Const15 and the
constant EXI makes: the spec gives each alone (30 R122, R125; log 12), safe. -/
opaque strideExi : BitVec 15 → Word → Word

/-! ### The parameters -/

/-- PMSTACK_ENTRY_DECODE at its default: bit 3 debug, else bits 2:1 the mode; bit 0 the enable (10 R35). -/
def entryLayout (e : BitVec 4) : Mode × Bool :=
  (if e.extractLsb' 3 1 = 1#1 then .debug else Mode.ofField (e.extractLsb' 1 2), e.extractLsb' 0 1 == 1#1)

/-- The parameters (00 R6, 93 section 3). The interrupt lines, the one parameter that changes while the machine runs,
are `irqLines` in State. -/
structure Params where
  /-- VLMAX, the elements of a vector register and the bits of a mask register, at least 1. -/
  vlmax : Nat
  vlmax_pos : 0 < vlmax
  /-- PA_BITS and VA_BITS, the address widths a TLB entry documents. -/
  paBits : Nat
  vaBits : Nat
  /-- NQUEUE, the number of hardware queues (10 R47). -/
  nqueue : Nat
  nqueue_pos : 0 < nqueue
  /-- QUEUE_WIDTH, the bits of a queue entry (10 R47). -/
  queueWidth : Nat
  /-- QUEUE_DEPTH, the most values a queue holds (10 R47). -/
  queueDepth : Nat
  /-- QUEUE_DISCIPLINE (46 R555). -/
  queueDiscipline : Discipline
  /-- TLB_WAYS, the ways of the TLB (10 R44). -/
  tlbWays : Nat
  /-- TLB_ENTRIES, the entries of one way of the TLB (10 R44). -/
  tlbEntries : Nat
  /-- RESET_IP, the nybble address of the first instruction (70 R780). -/
  resetIp : Word
  /-- CAUSE_UNIMP, CAUSE_PRIV, CAUSE_CHK, CAUSE_OVF and CAUSE_DBZ (60 R731). -/
  causeUnimp : BitVec 8
  causePriv : BitVec 8
  causeChk : BitVec 8
  causeOvf : BitVec 8
  causeDbz : BitVec 8
  /-- BYTE_ORDER (20 R74). -/
  byteOrder : ByteOrder
  /-- MEM_RANGE, whether a byte address exists (20 R82). -/
  memRange : Word → Bool
  /-- PMSTACK_ENTRY_DECODE, the mode and the interrupt enable of an entry (10 R35). -/
  entryDecode : BitVec 4 → Mode × Bool
  /-- CSR_MAP, the architectural register a CSR number is bound to (10 R43). -/
  csrMap : BitVec 16 → Option NamedCsr
  /-- REX_ENABLE, whether exceptions may be redirected to a mode (46 R566). -/
  rexEnable : View → Mode → Bool
  /-- TRANSLATE, the physical address of an access or the cause of a fault (20 R84). -/
  translate : View → Word → Access → Except (BitVec 8) Word
  /-- ICACHE_LINE, the bytes one line-invalidate command refreshes (70 R790). -/
  icacheLine : Nat
  /-- LEA_ENCODING and STZ_ENCODING, the 8-bit opcodes of LEA and of the store-and-zero forms, where they are
  supplied: without them no word stands for these instructions (44 R430, R436; log 10). -/
  leaEncoding : Option (BitVec 8)
  stzEncoding : Option (BitVec 8)
  /-- BMM_TRANSPOSE (40 R212). -/
  bmmTranspose : Transpose
  /-- RM_DECODE, the rounding mode of an Rm3 code (42 R342). -/
  rmDecode : BitVec 3 → Rounding
  /-- DFP_OPS and POSIT_OPS, the arithmetic of the decimal-float and posit groups, where it is supplied (42 R343). -/
  dfpOps : Option NumberOps
  positOps : Option NumberOps
  /-- GFX_TARGET, GFX_CLIP_ENABLE and GFX_CLIP (43 R393). -/
  gfx : Gfx
  /-- CREG_MAP, the scalar register a three-bit number names, where it is supplied (48 R697). -/
  cregMap : Option (BitVec 3 → BitVec 5)
  /-- CLDM_SEMANTICS, the effect of c.LDM SP from its twelve field bits, where it is supplied (48 R705). -/
  cldmSemantics : Option (BitVec 12 → View → View)

/-- The first element of a vector. -/
@[reducible] def Params.first (P : Params) : Fin P.vlmax := ⟨0, P.vlmax_pos⟩

/-- The defaults of 00 R6 and 93 section 3 (log 9). Three values are not the spec's. RESET_IP has no default and is 0
(DESIGN CHOICE, log 1, unsafe). The cause codes have none and are free values (log 4). GFX_CLIP has none and is
0, 0, 0, 0 (DESIGN CHOICE, log 9), without effect while GFX_CLIP_ENABLE is false. -/
@[reducible] def default : Params where
  vlmax := 64
  vlmax_pos := by decide
  paBits := 34
  vaBits := 40
  nqueue := 64
  nqueue_pos := by decide
  queueWidth := 64
  queueDepth := 1023
  queueDiscipline := .fifo
  tlbWays := 4
  tlbEntries := 1024
  resetIp := 0#64
  causeUnimp := causeUnimp
  causePriv := causePriv
  causeChk := causeChk
  causeOvf := causeOvf
  causeDbz := causeDbz
  byteOrder := .little
  memRange := fun _ => true
  entryDecode := entryLayout
  csrMap := fun _ => none
  rexEnable := fun _ _ => true
  translate := fun _ a _ => .ok a
  icacheLine := 64
  leaEncoding := none
  stzEncoding := none
  bmmTranspose := .result
  rmDecode := fun _ => .nearestEven
  dfpOps := none
  positOps := none
  gfx := { width := 0, height := 0, clipEnable := false, x0 := 0, y0 := 0, x1 := 0, y1 := 0 }
  cregMap := none
  cldmSemantics := none

end Sys2Proof.Config
end

