-- ==== Sys2Proof/Syntax.lean ====
section
/-! DEFINITION. The instructions of ANY-1 v3: one constructor for each row of spec/opcode_table.json,
with the operands its format gives it (30 R107 to R123, 47 R600, 48 R671). -/

namespace Sys2Proof

/-- A register specifier of one type bit and five number bits, used for Ra and Rt (30 R102, R103). -/
inductive RSpec
  /-- Type code 0: scalar register. -/
  | x (r : BitVec 5)
  /-- Type code 1: vector register. -/
  | v (r : BitVec 5)
  deriving DecidableEq, Repr

/-- A register specifier of two type bits and five number bits, used for Rb, Rc and Rd (30 R103). -/
inductive OSpec
  /-- Type code 0: scalar register. -/
  | x (r : BitVec 5)
  /-- Type code 1: vector register. -/
  | v (r : BitVec 5)
  /-- Type codes 2 and 3: the six-bit constant `{Ty[0], R5}`. -/
  | imm (c : BitVec 6)
  deriving DecidableEq, Repr

/-- R1 format: mask register, zeroing bit, source, target (30 R109). -/
structure R1 where
  m : BitVec 3
  z : Bool
  a : RSpec
  t : RSpec
  deriving DecidableEq, Repr

/-- R2 format: second source, first source, target (30 R108). -/
structure R2 where
  b : OSpec
  a : RSpec
  t : RSpec
  deriving DecidableEq, Repr

/-- R2 format with a six-bit shift amount in the Rb position (41 R313 to R318). -/
structure R2I where
  imm : BitVec 6
  a : RSpec
  t : RSpec
  deriving DecidableEq, Repr

/-- RI format: 16-bit constant, source, target (30 R107). -/
structure RI where
  imm : BitVec 16
  a : RSpec
  t : RSpec
  deriving DecidableEq, Repr

/-- CHK, constant upper bound (45 R504). -/
structure ChkI where
  imm : BitVec 16
  a : RSpec
  cn : BitVec 2
  deriving DecidableEq, Repr

/-- CHK, register form (45 R505). -/
structure ChkR where
  b : OSpec
  a : RSpec
  cn : BitVec 2
  deriving DecidableEq, Repr

/-- BYTNDX with a 12-bit constant (40 R215). -/
structure BytI where
  imm : BitVec 12
  a : RSpec
  t : RSpec
  deriving DecidableEq, Repr

/-- CSR format: register number, scalar source and target (30 R116). -/
structure Csr where
  regno : BitVec 16
  ra : BitVec 5
  rt : BitVec 5
  deriving DecidableEq, Repr

/-- UNLINK: frame pointer and stack pointer specifiers (30 R118). -/
structure Two where
  a : RSpec
  t : RSpec
  deriving DecidableEq, Repr

/-- Conditional branch: second source, scalar first source, `{Const9, C, Const6}` (30 R111). -/
structure Branch where
  b : OSpec
  ra : BitVec 5
  disp : BitVec 16
  deriving DecidableEq, Repr

/-- IMOD: rounding mode, Rc, Rd, the apply bits A, mask register, zeroing bit (30 R120). -/
structure ImodOps where
  rm : BitVec 3
  c : OSpec
  d : OSpec
  a : BitVec 2
  m : BitVec 3
  z : Bool
  deriving DecidableEq, Repr

/-- BRMOD: Constant15, Rc, Cnst4, link field (30 R121). -/
structure BrmodOps where
  hi : BitVec 15
  c : OSpec
  lo : BitVec 4
  rt : BitVec 2
  deriving DecidableEq, Repr

/-- STRIDE: Const15, Rc, the apply bits A, mask register, zeroing bit (30 R122). -/
structure StrideOps where
  hi : BitVec 15
  c : OSpec
  a : BitVec 2
  m : BitVec 3
  z : Bool
  deriving DecidableEq, Repr

/-- Load displacement format: displacement, base, target (30 R113). -/
structure LdD where
  disp : BitVec 12
  a : RSpec
  t : RSpec
  deriving DecidableEq, Repr

/-- Load indexed format: scale, index, base, target (30 R113). -/
structure LdX where
  sc : BitVec 3
  b : OSpec
  a : RSpec
  t : RSpec
  deriving DecidableEq, Repr

/-- Store displacement format: `{C5, Const6}`, stored value, base (30 R114). -/
structure StD where
  disp : BitVec 11
  b : OSpec
  a : RSpec
  deriving DecidableEq, Repr

/-- Store indexed format: scale, stored value, base; the index is IMOD's Rc (30 R114). -/
structure StX where
  sc : BitVec 3
  b : OSpec
  a : RSpec
  deriving DecidableEq, Repr

/-- CACHE: displacement, base, data-cache and instruction-cache commands (30 R115). -/
structure CacheOps where
  disp : BitVec 12
  a : RSpec
  dc : BitVec 3
  ic : BitVec 2
  deriving DecidableEq, Repr

/-- Three-mask layout of the {VM} group (47 R600). -/
structure MaskRRR where
  b : BitVec 3
  a : BitVec 3
  t : BitVec 3
  deriving DecidableEq, Repr

/-- Mask-shift layout of the {VM} group (47 R600). -/
structure MaskShift where
  b : OSpec
  a : BitVec 3
  t : BitVec 3
  deriving DecidableEq, Repr

/-- Scalar-to-mask layout of the {VM} group (47 R600). -/
structure ToMask where
  a : RSpec
  t : BitVec 3
  deriving DecidableEq, Repr

/-- Mask-to-scalar layout of the {VM} group: mask, two-bit target type, target number (47 R600). -/
structure FromMask where
  m : BitVec 3
  tt : BitVec 2
  rt : BitVec 5
  deriving DecidableEq, Repr

/-- The instructions, in the order of spec/opcode_table.json. `v` is bit 7, the vector indicator
(30 R101); a constructor without it has bit 7 fixed by its row. -/
inductive Instr
  /-- BRK (R541). -/
  | brk (cause : BitVec 8)
  /-- CNTLZ (R219). -/
  | cntlz (v : Bool) (o : R1)
  /-- CNTLO (R220). -/
  | cntlo (v : Bool) (o : R1)
  /-- CNTPOP (R218). -/
  | cntpop (v : Bool) (o : R1)
  /-- COM (R221). -/
  | com (v : Bool) (o : R1)
  /-- NOT (R266). -/
  | not (v : Bool) (o : R1)
  /-- NEG (R265). -/
  | neg (v : Bool) (o : R1)
  /-- ABS (R204). -/
  | abs (v : Bool) (o : R1)
  /-- NABS (R263). -/
  | nabs (v : Bool) (o : R1)
  /-- SQRT (R295). -/
  | sqrt (v : Bool) (o : R1)
  /-- TST (R319). -/
  | tst (v : Bool) (o : R1)
  /-- ZXB (R307). -/
  | zxb (v : Bool) (o : R1)
  /-- ZXW (R308). -/
  | zxw (v : Bool) (o : R1)
  /-- ZXT (R309). -/
  | zxt (v : Bool) (o : R1)
  /-- PTRINC (R320). -/
  | ptrinc (v : Bool) (o : R1)
  /-- TRANSFORM (R397). -/
  | transform (v : Bool) (o : R1)
  /-- SXB (R298). -/
  | sxb (v : Bool) (o : R1)
  /-- SXW (R299). -/
  | sxw (v : Bool) (o : R1)
  /-- SXT (R300). -/
  | sxt (v : Bool) (o : R1)
  /-- CLIP (R394). -/
  | clip (v : Bool) (o : R1)
  /-- V2BITS (R626). -/
  | v2bits (o : R1)
  /-- BITS2V (R627). -/
  | bits2v (o : R1)
  /-- VCMPRSS (R629). -/
  | vcmprss (o : R1)
  /-- VCIDX (R628). -/
  | vcidx (o : R1)
  /-- VSCAN (R630). -/
  | vscan (o : R1)
  /-- AND (R208). -/
  | and (v : Bool) (o : R2)
  /-- OR (R268). -/
  | or (v : Bool) (o : R2)
  /-- XOR (R306). -/
  | xor (v : Bool) (o : R2)
  /-- ADD (R206). -/
  | add (v : Bool) (o : R2)
  /-- SUB (R297). -/
  | sub (v : Bool) (o : R2)
  /-- NAND (R254). -/
  | nand (v : Bool) (o : R2)
  /-- NOR (R255). -/
  | nor (v : Bool) (o : R2)
  /-- XNOR (R256). -/
  | xnor (v : Bool) (o : R2)
  /-- MULU (R241). -/
  | mulu (v : Bool) (o : R2)
  /-- MULH (R251). -/
  | mulh (v : Bool) (o : R2)
  /-- DIVU (R233). -/
  | divu (v : Bool) (o : R2)
  /-- REM (R244). -/
  | rem (v : Bool) (o : R2)
  /-- REMU (R246). -/
  | remu (v : Bool) (o : R2)
  /-- REMSU (R248). -/
  | remsu (v : Bool) (o : R2)
  /-- MULSU (R250). -/
  | mulsu (v : Bool) (o : R2)
  /-- PERM (R271). -/
  | perm (v : Bool) (o : R2)
  /-- DIF (R228). -/
  | dif (v : Bool) (o : R2)
  /-- WYDNDX (R304). -/
  | wydndx (v : Bool) (o : R2)
  /-- MULF (R239). -/
  | mulf (v : Bool) (o : R2)
  /-- MULSUH (R252). -/
  | mulsuh (v : Bool) (o : R2)
  /-- MULUH (R253). -/
  | muluh (v : Bool) (o : R2)
  /-- CMP (R217). -/
  | cmp (v : Bool) (o : R2)
  /-- U21NDX (R302). -/
  | u21ndx (v : Bool) (o : R2)
  /-- SEQ (R275). -/
  | seq (v : Bool) (o : R2)
  /-- SNE (R288). -/
  | sne (v : Bool) (o : R2)
  /-- MIN (R237). -/
  | min (v : Bool) (o : R2)
  /-- MAX (R236). -/
  | max (v : Bool) (o : R2)
  /-- SLT (R282). -/
  | slt (v : Bool) (o : R2)
  /-- SGE (R276). -/
  | sge (v : Bool) (o : R2)
  /-- SLTU (R286). -/
  | sltu (v : Bool) (o : R2)
  /-- SGEU (R277). -/
  | sgeu (v : Bool) (o : R2)
  /-- MOR (R210). -/
  | mor (v : Bool) (o : R2)
  /-- MXOR (R211). -/
  | mxor (v : Bool) (o : R2)
  /-- MORT (R212). -/
  | mort (v : Bool) (o : R2)
  /-- MXORT (R213). -/
  | mxort (v : Bool) (o : R2)
  /-- PLOT (R396). -/
  | plot (v : Bool) (o : R2)
  /-- SLL (R290). -/
  | sll (v : Bool) (o : R2)
  /-- SRL (R293). -/
  | srl (v : Bool) (o : R2)
  /-- SRA (R310). -/
  | sra (v : Bool) (o : R2)
  /-- ROL (R311). -/
  | rol (v : Bool) (o : R2)
  /-- ROR (R312). -/
  | ror (v : Bool) (o : R2)
  /-- MUL (R262). -/
  | mul (v : Bool) (opt : BitVec 2) (o : R2)
  /-- DIV (R226). -/
  | div (v : Bool) (opt : BitVec 2) (o : R2)
  /-- DIVSU (R231). -/
  | divsu (v : Bool) (opt : BitVec 2) (o : R2)
  /-- MYST (R552). -/
  | myst (o : R2)
  /-- RW COEFF (R399). -/
  | rwCoeff (o : R2)
  /-- SLLI (R313). -/
  | slli (v : Bool) (o : R2I)
  /-- SRLI (R314). -/
  | srli (v : Bool) (o : R2I)
  /-- SRAI (R315). -/
  | srai (v : Bool) (o : R2I)
  /-- ROLI (R316). -/
  | roli (v : Bool) (o : R2I)
  /-- RORI (R317). -/
  | rori (v : Bool) (o : R2I)
  /-- MULF duplicate (R134). -/
  | mulfDuplicate (v : Bool) (o : R2)
  /-- VSLLV (R631). -/
  | vsllv (o : R2)
  /-- VSRLV (R632). -/
  | vsrlv (o : R2)
  /-- VEX (R633). -/
  | vex (o : R2)
  /-- VEINS (R634). -/
  | veins (o : R2)
  /-- MUX (R242). -/
  | mux (v : Bool) (o : R2)
  /-- SLLP (R291). -/
  | sllp (v : Bool) (o : R2)
  /-- PTRDIF (R272). -/
  | ptrdif (v : Bool) (o : R2)
  /-- BLEND (R392). -/
  | blend (v : Bool) (o : R2)
  /-- FDP (R372). -/
  | fdp (v : Bool) (o : R2)
  /-- SLLPI (R318). -/
  | sllpi (v : Bool) (o : R2I)
  /-- CHK R3 form (R505). -/
  | chkR3Form (v : Bool) (o : ChkR)
  /-- DEP (R223). -/
  | dep (v : Bool) (o : R2)
  /-- EXT (R224). -/
  | ext (v : Bool) (o : R2)
  /-- EXTU (R225). -/
  | extu (v : Bool) (o : R2)
  /-- FFO (R235). -/
  | ffo (v : Bool) (o : R2)
  /-- ADD immediate (R205). -/
  | addImmediate (v : Bool) (o : RI)
  /-- SUBF immediate (R296). -/
  | subfImmediate (v : Bool) (o : RI)
  /-- MUL immediate (R261). -/
  | mulImmediate (v : Bool) (o : RI)
  /-- AND immediate (R207). -/
  | andImmediate (v : Bool) (o : RI)
  /-- OR immediate (R267). -/
  | orImmediate (v : Bool) (o : RI)
  /-- XOR immediate (R305). -/
  | xorImmediate (v : Bool) (o : RI)
  /-- MULU immediate (R240). -/
  | muluImmediate (v : Bool) (o : RI)
  /-- DIV immediate (R227). -/
  | divImmediate (v : Bool) (o : RI)
  /-- DIVU immediate (R232). -/
  | divuImmediate (v : Bool) (o : RI)
  /-- DIVSU immediate (R230). -/
  | divsuImmediate (v : Bool) (o : RI)
  /-- MULF immediate (R238). -/
  | mulfImmediate (v : Bool) (o : RI)
  /-- MULSU immediate (R249). -/
  | mulsuImmediate (v : Bool) (o : RI)
  /-- PERM immediate (R270). -/
  | permImmediate (v : Bool) (o : RI)
  /-- REM immediate (R243). -/
  | remImmediate (v : Bool) (o : RI)
  /-- REMU immediate (R245). -/
  | remuImmediate (v : Bool) (o : RI)
  /-- WYDNDX immediate (R303). -/
  | wydndxImmediate (v : Bool) (o : RI)
  /-- REMSU immediate (R247). -/
  | remsuImmediate (v : Bool) (o : RI)
  /-- DIVR immediate (R229). -/
  | divrImmediate (v : Bool) (o : RI)
  /-- U21NDX immediate (R301). -/
  | u21ndxImmediate (v : Bool) (o : RI)
  /-- SEQ immediate (R274). -/
  | seqImmediate (v : Bool) (o : RI)
  /-- SNE immediate (R287). -/
  | sneImmediate (v : Bool) (o : RI)
  /-- SLT immediate (R281). -/
  | sltImmediate (v : Bool) (o : RI)
  /-- SGT immediate (R278). -/
  | sgtImmediate (v : Bool) (o : RI)
  /-- SLTU immediate (R285). -/
  | sltuImmediate (v : Bool) (o : RI)
  /-- SGTU immediate (R279). -/
  | sgtuImmediate (v : Bool) (o : RI)
  /-- MYST immediate (R551). -/
  | mystImmediate (o : RI)
  /-- SAND (R321). -/
  | sand (o : RI)
  /-- SOR (R322). -/
  | sor (o : RI)
  /-- SET group (R323). -/
  | setGroup (v : Bool)
  /-- CHK immediate (R504). -/
  | chkImmediate (v : Bool) (o : ChkI)
  /-- BYTNDX (R214). -/
  | bytndx (v : Bool) (o : R2)
  /-- BYTNDX immediate (R215). -/
  | bytndxImmediate (v : Bool) (o : BytI)
  /-- CSRRD (R546). -/
  | csrrd (o : Csr)
  /-- CSRRW (R547). -/
  | csrrw (o : Csr)
  /-- CSRRS (R548). -/
  | csrrs (o : Csr)
  /-- CSRRC (R549). -/
  | csrrc (o : Csr)
  /-- LLAL (R590). -/
  | llal
  /-- LLAH (R590). -/
  | llah
  /-- LPAL (R590). -/
  | lpal
  /-- LPAH (R590). -/
  | lpah
  /-- SETKEY (R590). -/
  | setkey
  /-- SETTO (R590). -/
  | setto
  /-- GETTO (R590). -/
  | getto
  /-- GETZL (R590). -/
  | getzl
  /-- MVSEG (R590). -/
  | mvseg
  /-- CSAVE (R590). -/
  | csave
  /-- CRESTORE (R590). -/
  | crestore
  /-- EXEC (R550). -/
  | exec (a : RSpec)
  /-- PUSHQ (R556). -/
  | pushq (b : OSpec) (a : RSpec)
  /-- POPQ (R558). -/
  | popq (a : RSpec) (t : RSpec)
  /-- PEEKQ (R560). -/
  | peekq (a : RSpec) (t : RSpec)
  /-- STATQ (R562). -/
  | statq (a : RSpec) (t : RSpec)
  /-- PUSHQI (R557). -/
  | pushqi (q : BitVec 6) (a : RSpec)
  /-- POPQI (R559). -/
  | popqi (q : BitVec 6) (t : RSpec)
  /-- PEEKQI (R561). -/
  | peekqi (q : BitVec 6) (t : RSpec)
  /-- STATQI (R563). -/
  | statqi (q : BitVec 6) (t : RSpec)
  /-- REX (R566). -/
  | rex (tm : BitVec 2)
  /-- PFI (R565). -/
  | pfi (t : RSpec)
  /-- WFI (R568). -/
  | wfi
  /-- RTE (R567). -/
  | rte (b : OSpec) (offset : BitVec 12)
  /-- TLBRW (R575). -/
  | tlbrw (o : R2)
  /-- SYNC (R572). -/
  | sync
  /-- FMOV (R380). -/
  | fmov (v : Bool) (o : R1)
  /-- FRSQRT (R380). -/
  | frsqrt (v : Bool) (o : R1)
  /-- FTOI (R380). -/
  | ftoi (v : Bool) (o : R1)
  /-- ITOF (R380). -/
  | itof (v : Bool) (o : R1)
  /-- FSIGN (R380). -/
  | fsign (v : Bool) (o : R1)
  /-- FMAN (R380). -/
  | fman (v : Bool) (o : R1)
  /-- FS2D (R380). -/
  | fs2d (v : Bool) (o : R1)
  /-- FS2Q (R380). -/
  | fs2q (v : Bool) (o : R1)
  /-- FD2Q (R380). -/
  | fd2q (v : Bool) (o : R1)
  /-- FSTAT (R380). -/
  | fstat (v : Bool) (o : R1)
  /-- ISNAN (R380). -/
  | isnan (v : Bool) (o : R1)
  /-- FINITE (R380). -/
  | finite (v : Bool) (o : R1)
  /-- FTX (R380). -/
  | ftx (v : Bool) (o : R1)
  /-- FCX (R380). -/
  | fcx (v : Bool) (o : R1)
  /-- FEX (R380). -/
  | fex (v : Bool) (o : R1)
  /-- FDX (R380). -/
  | fdx (v : Bool) (o : R1)
  /-- FRM (R380). -/
  | frm (v : Bool) (o : R1)
  /-- TRUNC (R380). -/
  | trunc (v : Bool) (o : R1)
  /-- FSYNC (R380). -/
  | fsync (v : Bool) (o : R1)
  /-- FRES (R380). -/
  | fres (v : Bool) (o : R1)
  /-- FSIGMOID (R380). -/
  | fsigmoid (v : Bool) (o : R1)
  /-- FD2S (R380). -/
  | fd2s (v : Bool) (o : R1)
  /-- FQ2S (R380). -/
  | fq2s (v : Bool) (o : R1)
  /-- FQ2D (R380). -/
  | fq2d (v : Bool) (o : R1)
  /-- FCLASS (R380). -/
  | fclass (v : Bool) (o : R1)
  /-- UNORD (R380). -/
  | unord (v : Bool) (o : R1)
  /-- FSQRT (R350). -/
  | fsqrt (v : Bool) (rm : BitVec 3) (o : R1)
  /-- FABS (R344). -/
  | fabs (v : Bool) (o : R1)
  /-- FNABS (R346). -/
  | fnabs (v : Bool) (o : R1)
  /-- FNEG (R348). -/
  | fneg (v : Bool) (o : R1)
  /-- SCALEB (R381). -/
  | scaleb (v : Bool) (o : R2)
  /-- FMIN (R358). -/
  | fmin (v : Bool) (o : R2)
  /-- FMAX (R359). -/
  | fmax (v : Bool) (o : R2)
  /-- FADD (R352). -/
  | fadd (v : Bool) (o : R2)
  /-- FSUB (R354). -/
  | fsub (v : Bool) (o : R2)
  /-- FMUL (R356). -/
  | fmul (v : Bool) (o : R2)
  /-- FDIV (R357). -/
  | fdiv (v : Bool) (o : R2)
  /-- FREM (R381). -/
  | frem (v : Bool) (o : R2)
  /-- FNXT (R381). -/
  | fnxt (v : Bool) (o : R2)
  /-- FCMP (R361). -/
  | fcmp (v : Bool) (o : R2)
  /-- FSEQ (R365). -/
  | fseq (v : Bool) (o : R2)
  /-- FSLT (R367). -/
  | fslt (v : Bool) (o : R2)
  /-- FSLE (R368). -/
  | fsle (v : Bool) (o : R2)
  /-- FSNE (R366). -/
  | fsne (v : Bool) (o : R2)
  /-- FCMPB (R363). -/
  | fcmpb (v : Bool) (o : R2)
  /-- FSETM (R381). -/
  | fsetm (v : Bool) (o : R2)
  /-- CPYSGN (R381). -/
  | cpysgn (v : Bool) (o : R2)
  /-- SGNINV (R381). -/
  | sgninv (v : Bool) (o : R2)
  /-- SGNAND (R381). -/
  | sgnand (v : Bool) (o : R2)
  /-- SGNOR (R381). -/
  | sgnor (v : Bool) (o : R2)
  /-- SGNXOR (R381). -/
  | sgnxor (v : Bool) (o : R2)
  /-- SGNXNOR (R381). -/
  | sgnxnor (v : Bool) (o : R2)
  /-- FCLASS dyadic (R381). -/
  | fclassDyadic (v : Bool) (o : R2)
  /-- FMA (R373). -/
  | fma (v : Bool) (o : R2)
  /-- FMS (R373). -/
  | fms (v : Bool) (o : R2)
  /-- FNMA (R373). -/
  | fnma (v : Bool) (o : R2)
  /-- FNMS (R373). -/
  | fnms (v : Bool) (o : R2)
  /-- F4 group (R382). -/
  | f4Group (v : Bool)
  /-- DFABS (R345). -/
  | dfabs (v : Bool) (o : R1)
  /-- DFNABS (R347). -/
  | dfnabs (v : Bool) (o : R1)
  /-- DFNEG (R349). -/
  | dfneg (v : Bool) (o : R1)
  /-- DFSQRT (R351). -/
  | dfsqrt (v : Bool) (rm : BitVec 3) (o : R1)
  /-- PABS (R345). -/
  | pabs (v : Bool) (o : R1)
  /-- PNABS (R347). -/
  | pnabs (v : Bool) (o : R1)
  /-- PNEG (R349). -/
  | pneg (v : Bool) (o : R1)
  /-- PSQRT (R351). -/
  | psqrt (v : Bool) (rm : BitVec 3) (o : R1)
  /-- DFMIN (R343). -/
  | dfmin (v : Bool) (o : R2)
  /-- DFMAX (R343). -/
  | dfmax (v : Bool) (o : R2)
  /-- DFADD (R353). -/
  | dfadd (v : Bool) (o : R2)
  /-- DFSUB (R355). -/
  | dfsub (v : Bool) (o : R2)
  /-- DFMUL (R356). -/
  | dfmul (v : Bool) (o : R2)
  /-- DFDIV (R357). -/
  | dfdiv (v : Bool) (o : R2)
  /-- DFREM (R343). -/
  | dfrem (v : Bool) (o : R2)
  /-- DFNXT (R343). -/
  | dfnxt (v : Bool) (o : R2)
  /-- DFCMP (R364). -/
  | dfcmp (v : Bool) (o : R2)
  /-- DFSEQ (R343). -/
  | dfseq (v : Bool) (o : R2)
  /-- DFSLT (R367). -/
  | dfslt (v : Bool) (o : R2)
  /-- DFSLE (R368). -/
  | dfsle (v : Bool) (o : R2)
  /-- DFSNE (R366). -/
  | dfsne (v : Bool) (o : R2)
  /-- DFCMPB (R364). -/
  | dfcmpb (v : Bool) (o : R2)
  /-- DFSETM (R343). -/
  | dfsetm (v : Bool) (o : R2)
  /-- PADD (R353). -/
  | padd (v : Bool) (o : R2)
  /-- PSUB (R355). -/
  | psub (v : Bool) (o : R2)
  /-- PMUL (R356). -/
  | pmul (v : Bool) (o : R2)
  /-- PDIV (R357). -/
  | pdiv (v : Bool) (o : R2)
  /-- PSLE PSGE with operands swapped (R369). -/
  | psle (v : Bool) (o : R2)
  /-- DF3 group (R382). -/
  | df3Group (v : Bool)
  /-- DF4 group (R382). -/
  | df4Group (v : Bool)
  /-- PST3 group (R382). -/
  | pst3Group (v : Bool)
  /-- PST4 group (R382). -/
  | pst4Group (v : Bool)
  /-- LINK (R451). -/
  | link (o : RI)
  /-- UNLINK (R452). -/
  | unlink (o : Two)
  /-- NOP (R141). -/
  | nop (v : Bool)
  /-- MAND (R602). -/
  | mand (o : MaskRRR)
  /-- MOR mask (R603). -/
  | morMask (o : MaskRRR)
  /-- MXOR mask (R604). -/
  | mxorMask (o : MaskRRR)
  /-- MADD (R605). -/
  | madd (o : MaskRRR)
  /-- MSUB (R606). -/
  | msub (o : MaskRRR)
  /-- MNAND (R609). -/
  | mnand (o : MaskRRR)
  /-- MNOR (R610). -/
  | mnor (o : MaskRRR)
  /-- MXNOR (R611). -/
  | mxnor (o : MaskRRR)
  /-- MSLL (R607). -/
  | msll (o : MaskShift)
  /-- MSRL (R608). -/
  | msrl (o : MaskShift)
  /-- MFILL (R612). -/
  | mfill (o : ToMask)
  /-- MPOP (R613). -/
  | mpop (o : FromMask)
  /-- MFIRST (R614). -/
  | mfirst (o : FromMask)
  /-- MLAST (R615). -/
  | mlast (o : FromMask)
  /-- MTM (R616). -/
  | mtm (o : ToMask)
  /-- MFM (R617). -/
  | mfm (o : FromMask)
  /-- MTVL (R618). -/
  | mtvl (a : RSpec)
  /-- MFVL (R619). -/
  | mfvl (tt : BitVec 2) (rt : BitVec 5)
  /-- JAL (R499). -/
  | jal (addr : BitVec 26) (rt : BitVec 2)
  /-- BAL (R496). -/
  | bal (addr : BitVec 26) (rt : BitVec 2)
  /-- JALR (R501). -/
  | jalr (o : RI)
  /-- FBEQ (R493). -/
  | fbeq (o : Branch)
  /-- FBNE (R494). -/
  | fbne (o : Branch)
  /-- BLT (R487). -/
  | blt (o : Branch)
  /-- BGE (R488). -/
  | bge (o : Branch)
  /-- BLTU (R489). -/
  | bltu (o : Branch)
  /-- BGEU (R490). -/
  | bgeu (o : Branch)
  /-- BBS (R491). -/
  | bbs (o : Branch)
  /-- BEQ (R485). -/
  | beq (o : Branch)
  /-- BNE (R486). -/
  | bne (o : Branch)
  /-- blank 43h (R495). -/
  | blank43h
  /-- blank 44h (R495). -/
  | blank44h
  /-- blank 45h (R495). -/
  | blank45h
  /-- blank 4Ch (R495). -/
  | blank4ch
  /-- EXI0 (R124). -/
  | exi0 (payload : BitVec 28)
  /-- EXI1 (R124). -/
  | exi1 (payload : BitVec 28)
  /-- EXI2 (R124). -/
  | exi2 (payload : BitVec 28)
  /-- EXI3 (R124). -/
  | exi3 (payload : BitVec 28)
  /-- EXI4 (R124). -/
  | exi4 (payload : BitVec 28)
  /-- IMOD (R120). -/
  | imod (v : Bool) (o : ImodOps)
  /-- BRMOD (R121). -/
  | brmod (o : BrmodOps)
  /-- STRIDE (R122). -/
  | stride (v : Bool) (o : StrideOps)
  /-- REGLIST (R123). -/
  | reglist (list : BitVec 30)
  /-- LDB (R415). -/
  | ldb (o : LdD)
  /-- LDB indexed (R416). -/
  | ldbIndexed (o : LdX)
  /-- LDW (R419). -/
  | ldw (o : LdD)
  /-- LDW indexed (R420). -/
  | ldwIndexed (o : LdX)
  /-- LDT (R423). -/
  | ldt (o : LdD)
  /-- LDT indexed (R424). -/
  | ldtIndexed (o : LdX)
  /-- LDO (R427). -/
  | ldo (o : LdD)
  /-- LDO indexed (R428). -/
  | ldoIndexed (o : LdX)
  /-- LDBZ (R417). -/
  | ldbz (o : LdD)
  /-- LDBZ indexed (R418). -/
  | ldbzIndexed (o : LdX)
  /-- LDWZ (R421). -/
  | ldwz (o : LdD)
  /-- LDWZ indexed (R422). -/
  | ldwzIndexed (o : LdX)
  /-- LDTZ (R425). -/
  | ldtz (o : LdD)
  /-- LDTZ indexed (R426). -/
  | ldtzIndexed (o : LdX)
  /-- LDO opcode 64h (R427). -/
  | ldoAt64h (o : LdD)
  /-- LDO indexed opcode 65h (R428). -/
  | ldoIndexedAt65h (o : LdX)
  /-- LDPTR 60h (R429). -/
  | ldptrAt60h (o : LdD)
  /-- LDPTR 61h (R429). -/
  | ldptrAt61h (o : LdX)
  /-- LDPTR 64h (R429). -/
  | ldptrAt64h (o : LdD)
  /-- LDPTR 65h (R429). -/
  | ldptrAt65h (o : LdX)
  /-- LDM 60h (R438). -/
  | ldmAt60h (o : LdD)
  /-- LDM 61h (R438). -/
  | ldmAt61h (o : LdX)
  /-- load Func4 4 60h (R413). -/
  | loadFunc4Is4At60h (o : LdD)
  /-- load Func4 5 60h (R413). -/
  | loadFunc4Is5At60h (o : LdD)
  /-- load Func4 4 61h (R413). -/
  | loadFunc4Is4At61h (o : LdX)
  /-- load Func4 5 61h (R413). -/
  | loadFunc4Is5At61h (o : LdX)
  /-- load Func4 4 64h (R413). -/
  | loadFunc4Is4At64h (o : LdD)
  /-- load Func4 5 64h (R413). -/
  | loadFunc4Is5At64h (o : LdD)
  /-- load Func4 4 65h (R413). -/
  | loadFunc4Is4At65h (o : LdX)
  /-- load Func4 5 65h (R413). -/
  | loadFunc4Is5At65h (o : LdX)
  /-- CACHE (R440). -/
  | cache (o : CacheOps)
  /-- STB (R431). -/
  | stb (o : StD)
  /-- STB indexed (R431). -/
  | stbIndexed (o : StX)
  /-- STW (R432). -/
  | stw (o : StD)
  /-- STW indexed (R432). -/
  | stwIndexed (o : StX)
  /-- STT (R433). -/
  | stt (o : StD)
  /-- STT indexed (R433). -/
  | sttIndexed (o : StX)
  /-- STO (R434). -/
  | sto (o : StD)
  /-- STO indexed (R434). -/
  | stoIndexed (o : StX)
  /-- STPTR (R435). -/
  | stptr (o : StD)
  /-- STPTR indexed (R435). -/
  | stptrIndexed (o : StX)
  /-- STM (R437). -/
  | stm (o : StD)
  /-- STM indexed (R437). -/
  | stmIndexed (o : StX)
  /-- POP (R449). -/
  | pop (o : R2)
  /-- POP pair (R450). -/
  | popPair (o : R2)
  /-- PUSH (R447). -/
  | push (o : R2)
  /-- PUSH pair (R448). -/
  | pushPair (o : R2)
  /-- LDSx (R442). -/
  | ldsx (f4 : BitVec 4) (o : LdD)
  /-- LDxVX (R443). -/
  | ldxvx (f4 : BitVec 4) (o : LdD)
  /-- CVLDSx (R641). -/
  | cvldsx (f4 : BitVec 4) (o : LdD)
  /-- CVLDxVX (R642). -/
  | cvldxvx (f4 : BitVec 4) (o : LdD)
  /-- STSx (R444). -/
  | stsx (f4 : BitVec 4) (o : StD)
  /-- STxVX (R445). -/
  | stxvx (f4 : BitVec 4) (o : StD)
  /-- CVSTSx (R643). -/
  | cvstsx (f4 : BitVec 4) (o : StD)
  /-- CVSTxVX (R644). -/
  | cvstxvx (f4 : BitVec 4) (o : StD)
  /-- c.RTI (R675). -/
  | cRti
  /-- c.PFI (R676). -/
  | cPfi
  /-- c.WFI (R677). -/
  | cWfi
  /-- c.SYNC (R678). -/
  | cSync
  /-- c.BRK (R674). -/
  | cBrk (cause : BitVec 7)
  /-- c.LDO FP (R679). -/
  | cLdoFp (k : BitVec 7) (r : BitVec 5)
  /-- c.LDO SP (R680). -/
  | cLdoSp (k : BitVec 7) (r : BitVec 5)
  /-- c.STO FP (R681). -/
  | cStoFp (k : BitVec 7) (r : BitVec 5)
  /-- c.STO SP (R682). -/
  | cStoSp (k : BitVec 7) (r : BitVec 5)
  /-- c.JMP  c.JAL (R683). -/
  | cJmp (ra : BitVec 5) (rt : BitVec 2)
  /-- c.MOV (R684). -/
  | cMov (ra : BitVec 5) (rt : BitVec 5)
  /-- c.ADD (R685). -/
  | cAdd (ra : BitVec 5) (rt : BitVec 5)
  /-- c.AND (R686). -/
  | cAnd (ra : BitVec 5) (rt : BitVec 5)
  /-- c.ADDI  c.ADDI8 SP (R687). -/
  | cAddi (k : BitVec 7) (r : BitVec 5)
  /-- c.ANDI (R688). -/
  | cAndi (k : BitVec 7) (r : BitVec 5)
  /-- c.ORI (R689). -/
  | cOri (k : BitVec 7) (r : BitVec 5)
  /-- c.BEQZ (R691). -/
  | cBeqz (k : BitVec 7) (r : BitVec 5)
  /-- c.BNEZ (R692). -/
  | cBnez (k : BitVec 7) (r : BitVec 5)
  /-- c.BAL  c.BRA (R693). -/
  | cBal (k : BitVec 10) (rt : BitVec 2)
  /-- c.LDI (R690). -/
  | cLdi (k : BitVec 7) (r : BitVec 5)
  /-- c.SLLI (R694). -/
  | cSlli (k : BitVec 5) (rt : BitVec 5)
  /-- c.SRLI (R695). -/
  | cSrli (k : BitVec 5) (rt : BitVec 5)
  /-- c.SRAI (R696). -/
  | cSrai (k : BitVec 5) (rt : BitVec 5)
  /-- c.SUB (R698). -/
  | cSub (rb : BitVec 3) (rt : BitVec 3)
  /-- c.OR (R699). -/
  | cOr (rb : BitVec 3) (rt : BitVec 3)
  /-- c.XOR (R700). -/
  | cXor (rb : BitVec 3) (rt : BitVec 3)
  /-- c.NAND (R701). -/
  | cNand (rb : BitVec 3) (rt : BitVec 3)
  /-- c.NOR (R702). -/
  | cNor (rb : BitVec 3) (rt : BitVec 3)
  /-- 7Ch unlisted codes (R703). -/
  | c7chUnlisted
  /-- 7Dh reserved (R704). -/
  | c7dhReserved
  /-- c.LDM SP (R705). -/
  | cLdmSp (list : BitVec 11) (e : Bool)
  /-- 7Fh no row (R706). -/
  | c7fhNoRow
  /-- SCALEB decimal float (R343). -/
  | scalebDecimal (v : Bool) (o : R2)
  /-- CPYSGN decimal float (R343). -/
  | cpysgnDecimal (v : Bool) (o : R2)
  /-- SGNINV decimal float (R343). -/
  | sgninvDecimal (v : Bool) (o : R2)
  /-- SGNAND decimal float (R343). -/
  | sgnandDecimal (v : Bool) (o : R2)
  /-- SGNOR decimal float (R343). -/
  | sgnorDecimal (v : Bool) (o : R2)
  /-- SGNXOR decimal float (R343). -/
  | sgnxorDecimal (v : Bool) (o : R2)
  /-- SGNXNOR decimal float (R343). -/
  | sgnxnorDecimal (v : Bool) (o : R2)
  /-- FCLASS decimal float (R343). -/
  | fclassDecimal (v : Bool) (o : R2)
  /-- Func4 0Dh 64h (R438). -/
  | loadFunc4Is13At64h (o : LdD)
  /-- Func4 0Dh 65h (R438). -/
  | loadFunc4Is13At65h (o : LdX)
  /-- 74h bits 19 18  00 bits 12 10 not 0 (R683). -/
  | c74hReserved
  deriving DecidableEq, Repr

end Sys2Proof
end

