-- ==== Sys2Proof/Machine/State.lean ====
section
/-! DEFINITION. The architectural state of ANY-1 v3 (10 R20 to R51, 43 R395, 70 R790) as plain data,
the reasons a step could stop, and the state after reset (70 R780, R781). -/

namespace Sys2Proof.Machine

/-- No constructor: no instruction of this machine stops it; every exception is a next state
(60 R737, R740). -/
inductive Fault
  deriving DecidableEq, Repr

/-- Why the model gives an instruction no meaning. -/
inductive Refusal
  /-- Raised by an arm of `exec` that has no meaning yet; safe. -/
  | notModelled (mnemonic : String)
  /-- Raised by `accessing` for an access outside MEM_RANGE, which 20 R82 calls a model-level refusal; with
  MEM_RANGE at its default, all of memory, no access is; safe. -/
  | outsideMemRange
  deriving DecidableEq, Repr

/-- A vector register: VLMAX elements of 64 bits (10 R26). -/
abbrev VReg (P : Config.Params := Config.default) := Vector Word P.vlmax

/-- A mask register: one bit for each element (10 R27). -/
abbrev Mask (P : Config.Params := Config.default) := BitVec P.vlmax

/-- The number of a hardware queue (10 R47). -/
abbrev QueueNo (P : Config.Params := Config.default) := Fin P.nqueue

/-- What the environment drives on the interrupt lines during one step (10 R41, 60 R750). -/
structure IrqSample where
  level : BitVec 4
  cause : BitVec 8
  deriving DecidableEq, Repr

/-- The modifier words read so far for the instruction that follows them (30 R120 to R128; log 6). -/
structure Mods where
  /-- Payloads of EXI0 to EXI4. -/
  exi : Vector (Option (BitVec 28)) 5
  imod : Option ImodOps
  brmod : Option BrmodOps
  stride : Option StrideOps
  /-- Bit `n - 1` is `List[n]`. -/
  reglist : Option (BitVec 30)
  /-- Address of the first modifier word of the group; `none` when there is none. -/
  start : Option Word
  deriving DecidableEq, Repr

/-- No modifier pending. -/
def Mods.none : Mods :=
  { exi := Vector.replicate 5 Option.none, imod := Option.none, brmod := Option.none,
    stride := Option.none, reglist := Option.none, start := Option.none }

/-- The state of the machine with the parameters `P`; `State` alone is that of the default parameters (00 R6). -/
structure State (P : Config.Params := Config.default) where
  /-- x0..x31 (10 R20); entry 0 is never read or written (10 R21). -/
  x : Vector Word 32
  /-- v0..v31 (10 R26). -/
  v : Vector (VReg P) 32
  /-- vm0..vm7 (10 R27). -/
  vm : Vector (Mask P) 8
  /-- VL (10 R28). -/
  vl : Word
  /-- IP, a nybble address (10 R30); within a group of modifiers, the address of the next word. -/
  ip : Word
  /-- PMSTACK (10 R34). -/
  pmstack : Word
  /-- cause[0..4] (10 R36). -/
  cause : Vector Word 5
  /-- badaddr[0..4] (10 R37). -/
  badaddr : Vector Word 5
  /-- EIP (10 R38). -/
  eip : Word
  /-- tvec[0..4] (10 R39). -/
  tvec : Vector Word 5
  /-- Semaphore[0..63] (10 R40). -/
  semaphore : Vector Bool 64
  /-- The CSR space by number; an unlisted number holds 0 (10 R43). -/
  csr : List (Nat × Word)
  /-- The TLB by `way * TLB_ENTRIES + entry`; an unlisted entry holds 0 (10 R44). -/
  tlb : List (Nat × Word)
  /-- The data-cache enable (10 R45). -/
  dcacheEnable : Bool
  /-- The hardware queues, oldest value first (10 R47). -/
  queues : Vector (List Word) P.nqueue
  /-- AA, AB, AC, AT, BA, BB, BC, BT, CA, CB, CC, CT, CMD (10 R48). -/
  coeff : Vector Word 13
  /-- PLOT's output, oldest first (43 R395). -/
  plotLog : List (Word × BitVec 32)
  /-- Memory by byte address; an unlisted byte reads 00h (20 R70, R82; log 3). -/
  mem : List Host.Cell
  /-- The fetch view of memory (70 R790). -/
  imem : List Host.Cell
  /-- The pending modifiers. -/
  mods : Mods
  /-- A WFI is stalled (46 R568; log 8). -/
  waiting : Bool
  /-- What the environment will drive on the interrupt lines, the current sample first; level 0
  after the last (60 R750; log 7). -/
  irqLines : List IrqSample
  deriving DecidableEq, Repr

/-- The machine right after reset: IP at RESET_IP and PMSTACK 0Ah (70 R780), queues and plot log
empty, the fetch view equal to memory (70 R781). Every value the spec leaves unspecified is 0
(log 2, DESIGN CHOICE, unsafe) and no byte of memory is listed (log 3). -/
def State.resetOf (P : Config.Params) : State P :=
  { x := Vector.replicate 32 0#64
    v := Vector.replicate 32 (Vector.replicate P.vlmax 0#64)
    vm := Vector.replicate 8 (BitVec.zero P.vlmax)
    vl := 0#64
    ip := P.resetIp
    pmstack := 0x0a#64
    cause := Vector.replicate 5 0#64
    badaddr := Vector.replicate 5 0#64
    eip := 0#64
    tvec := Vector.replicate 5 0#64
    semaphore := Vector.replicate 64 false
    csr := []
    tlb := []
    dcacheEnable := false
    queues := Vector.replicate P.nqueue []
    coeff := Vector.replicate 13 0#64
    plotLog := []
    mem := []
    imem := []
    mods := Mods.none
    waiting := false
    irqLines := [] }

/-- The machine with the default parameters right after reset (70 R780, R781). -/
def State.reset : State := State.resetOf Config.default

/-- What the parameters that speak of the state see of it. -/
def State.view {P : Config.Params} (s : State P) : Config.View :=
  { s with
    v := s.v.toList.map (·.toList)
    vm := s.vm.toList.map (·.toNat)
    queues := s.queues.toList }

/-- The state changed to what a view says: an element, mask or queue that its lists do not have is 0, or empty. -/
def State.withView {P : Config.Params} (s : State P) (w : Config.View) : State P :=
  { s with
    x := w.x, vl := w.vl, ip := w.ip, pmstack := w.pmstack, cause := w.cause, badaddr := w.badaddr, eip := w.eip
    tvec := w.tvec, semaphore := w.semaphore, csr := w.csr, tlb := w.tlb, dcacheEnable := w.dcacheEnable
    coeff := w.coeff, plotLog := w.plotLog, mem := w.mem, imem := w.imem
    v := Vector.ofFn fun r => Vector.ofFn fun e => (w.v.getD r.val []).getD e.val 0#64
    vm := Vector.ofFn fun m => BitVec.ofNat P.vlmax (w.vm.getD m.val 0)
    queues := Vector.ofFn fun q => w.queues.getD q.val [] }

/-- What one step answers. -/
abbrev Out (P : Config.Params := Config.default) := Host.Outcome (State P) Fault Refusal

end Sys2Proof.Machine
end

