-- ==== Sys2Proof/Machine/Sparse.lean ====
section
/-! DEFINITION. Sparse maps from an address to a value in one canonical form (addresses strictly
rising, no listed value 0), and memory over them (20 R70 to R80). -/

namespace Sys2Proof.Machine

/-- The value at key `a`; an unlisted key holds 0. -/
def sparseGet {w : Nat} (l : List (Nat × BitVec w)) (a : Nat) : BitVec w :=
  match l with
  | [] => 0#w
  | (k, u) :: r => if k = a then u else sparseGet r a

/-- The map with `v` at key `a`; storing 0 removes the entry. -/
def sparseSet {w : Nat} (l : List (Nat × BitVec w)) (a : Nat) (v : BitVec w) : List (Nat × BitVec w) :=
  match l with
  | [] => if v = 0#w then [] else [(a, v)]
  | (k, u) :: r =>
    if a < k then (if v = 0#w then (k, u) :: r else (a, v) :: (k, u) :: r)
    else if a = k then (if v = 0#w then r else (a, v) :: r)
    else (k, u) :: sparseSet r a v

/-- The canonical form from key `lo` on: keys strictly rising and below `lim`, no value 0. -/
def sparseWf {w : Nat} (lo lim : Nat) (l : List (Nat × BitVec w)) : Bool :=
  match l with
  | [] => true
  | (k, u) :: r => decide (lo ≤ k) && decide (k < lim) && !(u == 0#w) && sparseWf (k + 1) lim r

/-- The canonical form of memory: every address below 2^64. -/
def Memory.wf (m : List Host.Cell) : Bool := sparseWf 0 (2 ^ 64) m

/-- One byte of memory (20 R70). -/
def byteAt (m : List Host.Cell) (a : Word) : Byte := sparseGet m a.toNat

/-- Memory with one byte changed. -/
def setByte (m : List Host.Cell) (a : Word) (b : Byte) : List Host.Cell := sparseSet m a.toNat b

/-- The byte number, counted from the lowest address, that holds bits `8k+7:8k` of an `n`-byte value
(20 R74). -/
def lane (n k : Nat) (order : Config.ByteOrder := .little) : Nat :=
  match order with
  | .little => k
  | .big => n - 1 - k

/-- Bytes 0 to `k - 1` of the `n`-byte value at `a`. -/
def readLanes (m : List Host.Cell) (a : Word) (n k : Nat) (order : Config.ByteOrder := .little) :
    Word :=
  match k with
  | 0 => 0#64
  | j + 1 =>
    readLanes m a n j order ||| ((byteAt m (a + BitVec.ofNat 64 (lane n j order))).setWidth 64 <<< (8 * j))

/-- `MemRead(a, n)`: the `n`-byte value at `a`, addresses modulo 2^64, in a byte order (20 R74, R75). -/
def memRead (m : List Host.Cell) (a : Word) (n : Nat) (order : Config.ByteOrder := .little) : Word :=
  readLanes m a n n order

/-- Memory after the bytes 0 to `k - 1` of the `n`-byte value `v` are stored at `a`. -/
def writeLanes (m : List Host.Cell) (a : Word) (n : Nat) (v : Word) (k : Nat)
    (order : Config.ByteOrder := .little) : List Host.Cell :=
  match k with
  | 0 => m
  | j + 1 => setByte (writeLanes m a n v j order) (a + BitVec.ofNat 64 (lane n j order)) (v.extractLsb' (8 * j) 8)

/-- `MemWrite(a, n, v)` in a byte order (20 R74, R76). -/
def memWrite (m : List Host.Cell) (a : Word) (n : Nat) (v : Word)
    (order : Config.ByteOrder := .little) : List Host.Cell := writeLanes m a n v n order

end Sys2Proof.Machine
end

