-- ==== Sys2Proof/Machine/Ops.lean ====
section
/-! DEFINITION. The named operations over the state that every meaning is built from: register and
memory access, the end of an instruction, exception entry and return (60 R740, R756, R757), interrupts
(60 R750), control registers, queues. -/

namespace Sys2Proof

/-! ### Type codes -/

/-- Whether a source specifier is legal: a vector register only under v = 1 (30 R105, R130). -/
def RSpec.legal (v : Bool) : RSpec → Bool
  | .x _ => true
  | .v _ => v

def OSpec.legal (v : Bool) : OSpec → Bool
  | .x _ => true
  | .v _ => v
  | .imm _ => true

/-- Whether the type code of a target agrees with v: a vector register under v = 1, a scalar one under
v = 0 (30 R130). -/
def RSpec.agrees (v : Bool) : RSpec → Bool
  | .x _ => !v
  | .v _ => v

end Sys2Proof

namespace Sys2Proof.Machine

variable {P : Config.Params}

/-- Whether the source of a modifier word, if there is one, is legal. -/
def optLegal (v : Bool) : Option OSpec → Bool
  | none => true
  | some o => o.legal v

/-- Rc and Rd of the pending IMOD word, and Rc of the pending STRIDE word. -/
def State.specC (s : State P) : Option OSpec := s.mods.imod.map (·.c)
def State.specD (s : State P) : Option OSpec := s.mods.imod.map (·.d)
def State.specStride (s : State P) : Option OSpec := s.mods.stride.map (·.c)

/-- Whether v allows the type codes of the pending IMOD and STRIDE words: a vector register only under v = 1,
also where the instruction does not use the operand (30 R130). That the rule reaches such operands, STRIDE's Rc
before a scalar load, store or CACHE among them, is DEDUCED (log 17). -/
def State.modsLegal (s : State P) (v : Bool) : Bool :=
  optLegal v s.specC && optLegal v s.specD && optLegal v s.specStride

/-! ### Registers -/

/-- Scalar register `r`; x0 reads 0 (10 R21). -/
def State.readX (s : State P) (r : BitVec 5) : Word := if r = 0#5 then 0#64 else s.x[r.toNat]

/-- Scalar register `r` written; a write to x0 is discarded (10 R21). -/
def State.writeX (s : State P) (r : BitVec 5) (a : Word) : State P :=
  if r = 0#5 then s else { s with x := s.x.set r.toNat a }

/-- Vector register `r` (10 R26). -/
def State.readV (s : State P) (r : BitVec 5) : VReg P := s.v[r.toNat]

/-- Vector register `r` written. -/
def State.writeV (s : State P) (r : BitVec 5) (a : VReg P) : State P := { s with v := s.v.set r.toNat a }

/-- Mask register `m` (10 R27). -/
def State.readM (s : State P) (m : BitVec 3) : Mask P := s.vm[m.toNat]

/-- Mask register `m` written. -/
def State.writeM (s : State P) (m : BitVec 3) (a : Mask P) : State P := { s with vm := s.vm.set m.toNat a }

/-- The register a two-bit link field names: x0 to x3 (10 R24). -/
def linkReg (rt : BitVec 2) : BitVec 5 := rt.setWidth 5

/-- SP and FP of the forms that have no field for them (10 R22). -/
def spReg : BitVec 5 := 30#5
def fpReg : BitVec 5 := 29#5

/-! ### Memory -/

/-- TRANSLATE, the physical address of an access or the cause of a fault; by default the identity, which never faults
(20 R84). -/
def translate (s : State P) (a : Word) (k : Config.Access) : Except (BitVec 8) Word := P.translate s.view a k

/-- The physical address of an access, and the address itself where the translation faults: a load, a store or a fetch
of a byte whose translation faults is not made (`accessing`), and CACHE's line command, which never raises, takes it so
(DESIGN CHOICE, log 10). -/
def physical (s : State P) (a : Word) (k : Config.Access) : Word :=
  match translate s a k with
  | .ok p => p
  | .error _ => a

/-- `MemRead` on the data memory (20 R75). -/
def State.load (s : State P) (a : Word) (n : Nat) : Word := memRead s.mem (physical s a .load) n P.byteOrder

/-- `MemWrite` on the data memory; the fetch view does not change (20 R76, 70 R790). -/
def State.store (s : State P) (a : Word) (n : Nat) (v : Word) : State P :=
  { s with mem := memWrite s.mem (physical s a .store) n v P.byteOrder }

/-- The same in the midst of an instruction that began in the state `u`. DESIGN CHOICE (log 10): TRANSLATE sees `u`, the
state in which `accessing` asks it, for every access of the instruction. -/
def State.storeFrom (s u : State P) (a : Word) (n : Nat) (v : Word) : State P :=
  { s with mem := memWrite s.mem (physical u a .store) n v P.byteOrder }

/-- The accesses of one kind that an instruction makes: effective addresses, each with its number of bytes. -/
structure Accesses where
  kind : Config.Access
  items : List (Word × Nat)

/-- The cause of the first translation that faults (20 R84). -/
def State.accessFault (s : State P) (x : Accesses) : Option (BitVec 8) :=
  x.items.findSome? fun p =>
    match translate s p.1 x.kind with
    | .ok _ => none
    | .error c => some c

/-! ### The instruction group -/

/-- Address of the group: of its first modifier word if it has one (30 R128, 60 R742). -/
def State.groupAddr (s : State P) : Word := s.mods.start.getD s.ip

/-- Whether a modifier word is pending. -/
def State.inGroup (s : State P) : Bool := s.mods.start.isSome

/-- Address of the next instruction after a 36-bit word (45 R480). -/
def State.nextIp (s : State P) : Word := s.ip + 9#64

/-- Go to nybble address `a`; the group ends. -/
def State.jump (s : State P) (a : Word) : State P := { s with ip := a, mods := Mods.none }

/-- End of a 36-bit instruction that does not transfer control. -/
def State.finish (s : State P) : State P := s.jump (s.ip + 9#64)

/-- End of a 20-bit instruction that does not transfer control (48 R670). -/
def State.finishShort (s : State P) : State P := s.jump (s.ip + 5#64)

/-! ### Modes, exceptions, interrupts -/

/-- Number of a mode (10 R33). -/
def Mode.index : Mode → Fin 5
  | .user => 0
  | .supervisor => 1
  | .hypervisor => 2
  | .machine => 3
  | .debug => 4

/-- The current operating mode: that of the current entry (10 R35, 60 R755). -/
def State.mode (s : State P) : Mode := (P.entryDecode (s.pmstack.extractLsb' 0 4)).1

/-- Whether interrupts are enabled (10 R35, 60 R755). -/
def State.ie (s : State P) : Bool := (P.entryDecode (s.pmstack.extractLsb' 0 4)).2

/-- Per-mode registers (10 R36, R37, R39). -/
def State.causeOf (s : State P) (m : Mode) : Word := s.cause[m.index]
def State.badaddrOf (s : State P) (m : Mode) : Word := s.badaddr[m.index]
def State.tvecOf (s : State P) (m : Mode) : Word := s.tvec[m.index]
def State.setCause (s : State P) (m : Mode) (a : Word) : State P := { s with cause := s.cause.set m.index a }
def State.setBadaddr (s : State P) (m : Mode) (a : Word) : State P :=
  { s with badaddr := s.badaddr.set m.index a }
def State.setTvec (s : State P) (m : Mode) (a : Word) : State P := { s with tvec := s.tvec.set m.index a }

/-- `raise(c)`, the one exception entry (60 R740): push 1010b on PMSTACK, record the cause of debug
mode, save the group's address in EIP, go to tvec[4]. -/
def State.raiseExc (s : State P) (c : Word) : State P :=
  let t : State P := { s with pmstack := s.pmstack <<< 4 ||| 0xa#64, eip := s.groupAddr }
  (t.setCause .debug c).jump (s.tvecOf .debug)

/-- `raise(CAUSE_UNIMP)` (60 R736). -/
def State.unimplemented (s : State P) : State P := s.raiseExc (P.causeUnimp.setWidth 64)

/-- Return from an exception (60 R757): pop PMSTACK, clear semaphore 0 and semaphore `b mod 64`, go to
EIP plus the offset. -/
def State.returnExc (s : State P) (b offset : Word) : State P :=
  let sem := (s.semaphore.set 0 false).set (b.toNat % 64) false (Nat.mod_lt _ (by decide))
  let t : State P := { s with pmstack := s.pmstack >>> 4, semaphore := sem }
  t.jump (s.eip + offset)

/-- Redirection to a lower mode (46 R566): copy cause and badaddr, replace the current PMSTACK entry,
go to the mode's vector. -/
def State.redirect (s : State P) (tm : BitVec 2) : State P :=
  let target := Mode.ofField tm
  let entry : BitVec 4 := 0#1 ++ tm ++ 0#1
  let t : State P := { s with pmstack := s.pmstack.extractLsb' 4 60 ++ entry }
  ((t.setCause target (s.causeOf s.mode)).setBadaddr target (s.badaddrOf s.mode)).jump (s.tvecOf target)

/-- The sample the environment drives now; level 0 once the list is used up (60 R750). -/
def State.irq (s : State P) : IrqSample := s.irqLines.headD ⟨0#4, 0#8⟩

/-- `(irq_level << 8) | irq_cause` (60 R731). -/
def IrqSample.word (q : IrqSample) : Word := (q.level ++ q.cause).setWidth 64

/-- Whether an interrupt is taken at this instruction boundary (60 R750). A stalled WFI first completes
(60 R752), and nothing comes between a modifier and its instruction. -/
def State.interruptTaken (s : State P) : Bool :=
  s.ie && !(s.irq.level == 0#4) && !s.inGroup && !s.waiting

/-! ### Control registers -/

/-- `csr_read`: the register CSR_MAP binds to the number, or its cell (10 R43, 46 R545). -/
def State.csrRead (s : State P) (regno : BitVec 16) : Word :=
  match P.csrMap regno with
  | some .pmstack => s.pmstack
  | some (.cause m) => s.causeOf m
  | some (.badaddr m) => s.badaddrOf m
  | some .eip => s.eip
  | some (.tvec m) => s.tvecOf m
  | none => sparseGet s.csr regno.toNat

/-- `csr_write` (46 R545). -/
def State.csrWrite (s : State P) (regno : BitVec 16) (a : Word) : State P :=
  match P.csrMap regno with
  | some .pmstack => { s with pmstack := a }
  | some (.cause m) => s.setCause m a
  | some (.badaddr m) => s.setBadaddr m a
  | some .eip => { s with eip := a }
  | some (.tvec m) => s.setTvec m a
  | none => { s with csr := sparseSet s.csr regno.toNat a }

/-! ### Hardware queues -/

/-- The queue a number names: modulo NQUEUE (46 R555). Qno6 is taken so too (46 R557), which makes a difference where
NQUEUE is below 64 only (DESIGN CHOICE, log 9). -/
def queueNumber (n : Nat) : QueueNo P := ⟨n % P.nqueue, Nat.mod_lt _ P.nqueue_pos⟩

def State.queue (s : State P) (q : QueueNo P) : List Word := s.queues[q]
def State.setQueue (s : State P) (q : QueueNo P) (l : List Word) : State P := { s with queues := s.queues.set q l }

/-- Push the low QUEUE_WIDTH bits; a push to a full queue is dropped (46 R556). -/
def State.pushQueue (s : State P) (q : QueueNo P) (a : Word) : State P :=
  if (s.queue q).length < P.queueDepth then
    s.setQueue q (s.queue q ++ [Word.zextLow P.queueWidth a])
  else s

/-- The value POPQ and PEEKQ answer; 0 for an empty queue (46 R558, R560). -/
def State.queueTop (s : State P) (q : QueueNo P) : Word :=
  match P.queueDiscipline with
  | .fifo => (s.queue q).headD 0#64
  | .lifo => (s.queue q).getLastD 0#64

/-- The queue without that value (46 R558). -/
def State.popQueue (s : State P) (q : QueueNo P) : State P :=
  match P.queueDiscipline with
  | .fifo => s.setQueue q (s.queue q).tail
  | .lifo => s.setQueue q (s.queue q).dropLast

/-- The status word: Qe in bit 63, Dv in bit 62, the count in bits 9:0 (46 R562). -/
def State.queueStatus (s : State P) (q : QueueNo P) : Word :=
  let n := (s.queue q).length
  (if n = 0 then 1#64 <<< 63 else 1#64 <<< 62) ||| BitVec.ofNat 64 (min n 1023)

/-! ### The ends an instruction can have -/

/-- Whether the `n` bytes from `a` on exist (20 R82). -/
def inRange (P : Config.Params) (a : Word) (n : Nat) : Bool := (List.range n).all fun k => P.memRange (a + BitVec.ofNat 64 k)

/-- An instruction that makes the accesses `x` and ends as `r`. Before it has an effect, a translation that
faults raises its cause (20 R84), and an access outside MEM_RANGE is refused (20 R82). TRANSLATE sees the state before
the instruction, for all of `x` (DESIGN CHOICE, log 10). With these parameters at their defaults it always ends as `r`. -/
def accessing (s : State P) (x : Accesses) (r : Out P) : Out P :=
  match s.accessFault x with
  | some c => .next (s.raiseExc (c.setWidth 64))
  | none =>
    if x.items.all fun p => inRange P (physical s p.1 x.kind) p.2 then r else .refused .outsideMemRange

/-- A 36-bit instruction other than a conditional branch, with its v bit: a BRMOD before it (45 R483) and a
modifier with a type code that v does not allow (30 R130) raise Unimplemented; otherwise it ends as `r`. -/
def plainOut (v : Bool) (s : State P) (r : Out P) : Out P :=
  if s.mods.brmod.isSome || !s.modsLegal v then .next s.unimplemented else r

/-- Such an instruction that ends in the state `t`. -/
def plain (v : Bool) (s t : State P) : Out P := plainOut v s (.next t)

/-- An instruction of the {VM} group, which ignores an IMOD before it (47 R601). -/
def plainMask (s t : State P) : Out P := .next (if s.mods.brmod.isSome then s.unimplemented else t)

/-- A 20-bit instruction: any modifier before it raises Unimplemented (48 R672); otherwise it ends as `r`. -/
def shortOut (s : State P) (r : Out P) : Out P := if s.inGroup then .next s.unimplemented else r

/-- Such an instruction that ends in the state `t`. -/
def short (s t : State P) : Out P := shortOut s (.next t)

end Sys2Proof.Machine
end

