-- ==== Sys2Proof/Machine/Flags.lean ====
section
/-! DEFINITION. The conditions of ANY-1 v3. The machine has no flag register (10 R32): a condition is
a comparison of operand values, the bit vector of FCMPB, or an overflow test that an instruction may
turn into an exception. -/

namespace Sys2Proof.Machine

variable {P : Config.Params}

/-- `s(a) < s(b)` (40 R200). -/
def ltS (a b : Word) : Bool := decide (a.toInt < b.toInt)

/-- `u(a) < u(b)` (40 R200). -/
def ltU (a b : Word) : Bool := decide (a.toNat < b.toNat)

/-- The three-way signed compare of CMP: -1, 0 or 1 (40 R217). -/
def cmp3 (a b : Word) : Word := if ltS a b then BitVec.allOnes 64 else if a = b then 0#64 else 1#64

/-- A signed product that does not fit in 64 bits (41 R260). -/
def mulOverflow (a b : Word) : Bool :=
  decide (a.toInt * b.toInt < -(2 ^ 63)) || decide (2 ^ 63 ≤ a.toInt * b.toInt)

/-- The one signed quotient that does not fit in 64 bits (40 R226). -/
def divOverflow (a b : Word) : Bool := a == 1#64 <<< 63 && b == BitVec.allOnes 64

/-- The bounds test of CHK: each end of the range is open where its bit of Cn2 is 1, bit 0 the lower
end and bit 1 the upper one; signed (45 R504). -/
def inBounds (cn : BitVec 2) (lo a hi : Word) : Bool :=
  (if cn.extractLsb' 0 1 = 1#1 then ltS lo a else !ltS a lo) &&
    (if cn.extractLsb' 1 1 = 1#1 then ltS a hi else !ltS hi a)

/-- Bit `b mod 64` of a word: the condition of BBS (45 R491). -/
def testBit (a b : Word) : Bool := a.getLsbD (b.toNat % 64)

/-! ### Binary64 comparison (42 R360) -/

/-- The magnitude of a binary64 pattern: bits 62:0 (42 R341). -/
def fpMag (a : Word) : Nat := (a.extractLsb' 0 63).toNat

/-- A NaN: exponent all ones and a fraction that is not 0 (42 R341). -/
def fpIsNan (a : Word) : Bool := decide (0x7ff0000000000000 < fpMag a)

/-- The signed magnitude, in the order of the values a number and a number compare by; both zeros are 0. -/
def fpKey (a : Word) : Int := if a.extractLsb' 63 1 = 1#1 then -(fpMag a : Int) else (fpMag a : Int)

/-- Either operand is a NaN (42 R360). -/
def fpUnordered (a b : Word) : Bool := fpIsNan a || fpIsNan b

def fpEq (a b : Word) : Bool := !fpUnordered a b && decide (fpKey a = fpKey b)
def fpLt (a b : Word) : Bool := !fpUnordered a b && decide (fpKey a < fpKey b)
def fpLe (a b : Word) : Bool := !fpUnordered a b && decide (fpKey a ≤ fpKey b)

/-- The result of FCMP: -1.0, 0.0, +1.0, or 2.0 for an unordered pair (42 R361). -/
def fpCompare (a b : Word) : Word :=
  if fpUnordered a b then 0x4000000000000000#64
  else if fpLt a b then 0xbff0000000000000#64
  else if fpEq a b then 0#64
  else 0x3ff0000000000000#64

/-- The bit vector of FCMPB (42 R363). -/
def fpCompareBits (a b : Word) : Word :=
  let ordered := !fpUnordered a b
  let at_ (c : Bool) (n : Nat) : Word := if c then 1#64 <<< n else 0#64
  at_ (fpEq a b) 0 ||| at_ (fpLt a b) 1 ||| at_ (fpLe a b) 2 |||
    at_ (ordered && decide (fpMag a < fpMag b)) 3 ||| at_ (fpUnordered a b) 4 |||
    at_ (ordered && !fpEq a b) 8 ||| at_ (ordered && !fpLt a b) 9 ||| at_ (ordered && !fpLe a b) 10 |||
    at_ (ordered && decide (fpMag b ≤ fpMag a)) 11 ||| at_ ordered 12 ||| at_ (fpLt a b) 63

end Sys2Proof.Machine
end

