-- ==== Sys2Proof/Machine/Alu.lean ====
section
/-! DEFINITION. The integer operations of 40_arith_a.md and 41_arith_b.md as functions of their operand
values. -/

namespace Sys2Proof.Machine

/-! ### Absolute values -/

/-- ABS (40 R204). -/
def absWord (a : Word) : Word := if ltS a 0#64 then 0#64 - a else a

/-- NABS (41 R263). -/
def nabsWord (a : Word) : Word := if ltS a 0#64 then a else 0#64 - a

/-- DIF: the absolute value of the wrapped difference (40 R228). -/
def difWord (a b : Word) : Word := absWord (a - b)

/-- PTRDIF: the absolute difference shifted right by the low five bits of C (41 R272). -/
def ptrdifWord (a b c : Word) : Word := absWord (a - b) >>> (c.toNat % 32)

/-! ### Counting -/

/-- The length of the run of bits equal to `b` from bit `k - 1` downward. -/
def leadRun {w : Nat} (b : Bool) (a : BitVec w) (k : Nat) : Nat :=
  match k with
  | 0 => 0
  | j + 1 => if a.getLsbD j = b then leadRun b a j + 1 else 0

/-- CNTLZ (40 R219). -/
def cntlzWord (a : Word) : Word := BitVec.ofNat 64 (leadRun false a 64)

/-- CNTLO (40 R220). -/
def cntloWord (a : Word) : Word := BitVec.ofNat 64 (leadRun true a 64)

/-- The number of 1 bits among bits `k - 1` to 0. -/
def onesBelow {w : Nat} (a : BitVec w) (k : Nat) : Nat :=
  match k with
  | 0 => 0
  | j + 1 => onesBelow a j + (if a.getLsbD j then 1 else 0)

/-- CNTPOP (40 R218). -/
def cntpopWord (a : Word) : Word := BitVec.ofNat 64 (onesBelow a 64)

/-! ### Bit matrices -/

/-- The word whose bit `k` is `f k`, for k below `n`. -/
def wordOfBits (f : Nat → Bool) (n : Nat) : Word :=
  match n with
  | 0 => 0#64
  | j + 1 => wordOfBits f j ||| (if f j then 1#64 <<< j else 0#64)

/-- Element [i][j] of the 8x8 matrix in a word: bit `63 - (8i + j)` (40 R209). -/
def matBit (a : Word) (i j : Nat) : Bool := a.getLsbD (63 - (8 * i + j))

/-- The word of a matrix given by its elements (40 R209). -/
def wordOfMatrix (f : Nat → Nat → Bool) : Word := wordOfBits (fun k => f ((63 - k) / 8) ((63 - k) % 8)) 64

/-- The transposed matrix. -/
def transpose (a : Word) : Word := wordOfMatrix fun i j => matBit a j i

/-- The matrix product with `join` (OR or XOR) as the sum (40 R210, R211). -/
def matMul (join : Bool → Bool → Bool) (a b : Word) : Word :=
  wordOfMatrix fun i j => (List.range 8).foldl (fun acc k => join acc (matBit a i k && matBit b k j)) false

/-- The product with a transposition; BMM_TRANSPOSE says of what (40 R212, R213). -/
def matMulTransposed (join : Bool → Bool → Bool) (a b : Word)
    (which : Config.Transpose := .result) : Word :=
  match which with
  | .result => transpose (matMul join a b)
  | .first => matMul join (transpose a) b
  | .second => matMul join a (transpose b)

/-! ### Searches -/

/-- The least field number below `n` whose `w` bits are `key` (40 R214, 41 R301, R303). -/
def fieldIndex {w : Nat} (n : Nat) (key : BitVec w) (a : Word) : Option Nat :=
  (List.range n).find? fun k => a.extractLsb' (w * k) w == key

/-- An index as a result: -1 for none. -/
def indexWord : Option Nat → Word
  | none => BitVec.allOnes 64
  | some k => BitVec.ofNat 64 k

/-- PERM: target byte k is source byte `sel[3k+2:3k]` (41 R269). -/
def permWord (a sel : Word) : Word :=
  let b (k : Nat) : Byte := a.extractLsb' (8 * (sel.extractLsb' (3 * k) 3).toNat) 8
  b 7 ++ b 6 ++ b 5 ++ b 4 ++ b 3 ++ b 2 ++ b 1 ++ b 0

/-! ### Bit fields -/

/-- The width of a field from its width code (40 R222). -/
def fieldWidth (d : Word) : Nat := d.toNat % 64 + 1

/-- DEP: the low bits of `b` inserted into `a` (40 R223). -/
def depWord (a b c d : Word) : Word :=
  let m : Word := BitVec.ofNat 64 (2 ^ fieldWidth d - 1) <<< (c.toNat % 64)
  (a &&& ~~~m) ||| ((b <<< (c.toNat % 64)) &&& m)

/-- 64 bits of `{b, a}` from the field offset up (40 R224). -/
def fieldSource (a b c : Word) : Word := ((b ++ a : BitVec 128) >>> (c.toNat % 128)).setWidth 64

/-- EXT: the field sign-extended (40 R224). -/
def extWord (a b c d : Word) : Word :=
  (fieldSource a b c <<< (64 - fieldWidth d)).sshiftRight (64 - fieldWidth d)

/-- EXTU: the field zero-extended (40 R225). -/
def extuWord (a b c d : Word) : Word := (fieldSource a b c <<< (64 - fieldWidth d)) >>> (64 - fieldWidth d)

/-- FFO: the index of the highest set bit of the field, or -1 (40 R235). -/
def ffoWord (a c d : Word) : Word :=
  let f : Word := ((a >>> (c.toNat % 64)) <<< (64 - fieldWidth d)) >>> (64 - fieldWidth d)
  if f = 0#64 then BitVec.allOnes 64 else BitVec.ofNat 64 (63 - leadRun false f 64)

/-! ### Multiplication -/

/-- MULF: 24 by 16 bits (40 R238, R239). -/
def mulfWord (a b : Word) : Word := Word.zextLow 24 a * Word.zextLow 16 b

/-- MULH: the high half of the signed product (40 R251). -/
def mulhWord (a b : Word) : Word := BitVec.ofInt 64 (a.toInt * b.toInt / 2 ^ 64)

/-- MULSUH: the high half of signed times unsigned (40 R252). -/
def mulsuhWord (a b : Word) : Word := BitVec.ofInt 64 (a.toInt * (b.toNat : Int) / 2 ^ 64)

/-- MULUH: the high half of the unsigned product (40 R253). -/
def muluhWord (a b : Word) : Word := BitVec.ofNat 64 (a.toNat * b.toNat / 2 ^ 64)

/-- MULSU: the low half of signed times unsigned (40 R249, R250). -/
def mulsuWord (a b : Word) : Word := BitVec.ofInt 64 (a.toInt * (b.toNat : Int))

/-! ### Division: a divisor of 0 gives a free value (40 R257) -/

/-- DIV: the quotient rounded toward zero; -2^63 by -1 wraps to -2^63 (40 R226, R227). -/
def divWord (a b : Word) : Word :=
  if b = 0#64 then Config.divByZero .div a else BitVec.ofInt 64 (a.toInt.tdiv b.toInt)

/-- DIVR: the constant divided by the register (40 R229). -/
def divrWord (a imm : Word) : Word :=
  if a = 0#64 then Config.divByZero .divr imm else BitVec.ofInt 64 (imm.toInt.tdiv a.toInt)

/-- DIVU (40 R232, R233). -/
def divuWord (a b : Word) : Word :=
  if b = 0#64 then Config.divByZero .divu a else BitVec.ofNat 64 (a.toNat / b.toNat)

/-- DIVSU: signed by unsigned (40 R230, R231). -/
def divsuWord (a b : Word) : Word :=
  if b = 0#64 then Config.divByZero .divsu a else BitVec.ofInt 64 (a.toInt.tdiv (b.toNat : Int))

/-- REM: the remainder with the dividend's sign (40 R243, R244). -/
def remWord (a b : Word) : Word :=
  if b = 0#64 then Config.divByZero .rem a else BitVec.ofInt 64 (a.toInt.tmod b.toInt)

/-- REMU (40 R245, R246). -/
def remuWord (a b : Word) : Word :=
  if b = 0#64 then Config.divByZero .remu a else BitVec.ofNat 64 (a.toNat % b.toNat)

/-- REMSU: signed by unsigned (40 R247, R248). -/
def remsuWord (a b : Word) : Word :=
  if b = 0#64 then Config.divByZero .remsu a else BitVec.ofInt 64 (a.toInt.tmod (b.toNat : Int))

/-! ### Shifts: the amount is the low six bits (41 R289) -/

def sllWord (a b : Word) : Word := a <<< (b.toNat % 64)
def srlWord (a b : Word) : Word := a >>> (b.toNat % 64)
def sraWord (a b : Word) : Word := a.sshiftRight (b.toNat % 64)
def rolWord (a b : Word) : Word := a.rotateLeft (b.toNat % 64)
def rorWord (a b : Word) : Word := a.rotateRight (b.toNat % 64)

/-- SLLP: the upper 64 bits of `{a, c}` shifted left (41 R291). -/
def sllpWord (a b c : Word) : Word := ((a ++ c : BitVec 128) <<< (b.toNat % 64)).extractLsb' 64 64

/-! ### Square root -/

/-- The largest r with r * r at most `x`, built from bit `i - 1` downward on top of `r`. -/
def isqrtFrom (x : Nat) (i r : Nat) : Nat :=
  match i with
  | 0 => r
  | j + 1 => if (r + 2 ^ j) * (r + 2 ^ j) ≤ x then isqrtFrom x j (r + 2 ^ j) else isqrtFrom x j r

/-- SQRT: the floor of the unsigned square root (41 R295). -/
def sqrtWord (a : Word) : Word := BitVec.ofNat 64 (isqrtFrom a.toNat 32 0)

end Sys2Proof.Machine
end

