-- ==== Sys2Proof/Machine/Operands.lean ====
section
/-! DEFINITION. Operand values (30 R103 to R106), immediate constants and displacements with their
extension words (30 R122, R125 to R127), and the execution of one operation on a scalar or on every
active element of a vector (30 R129, R130). -/

namespace Sys2Proof.Machine

variable {P : Config.Params}

/-! ### Constants -/

/-- A six-bit constant, sign-extended (30 R104). -/
def sext6 (c : BitVec 6) : Word := c.signExtend 64

/-- A six-bit constant, zero-extended (30 R104). -/
def zext6 (c : BitVec 6) : Word := c.setWidth 64

/-- A six-bit float constant: `(1 + S/8) * 2^(E-3)` with E = c[5:3] and S = c[2:0], as a binary64
number (30 R106). -/
def float6 (c : BitVec 6) : Word :=
  (BitVec.ofNat 12 ((c.extractLsb' 3 3).toNat + 1020)) ++ c.extractLsb' 0 3 ++ 0#49

end Sys2Proof.Machine

namespace Sys2Proof

open Machine

/-! ### Source operands -/

/-- The value of a source at element `e` (30 R105); a scalar instruction uses element 0 of nothing. -/
def RSpec.value (s : State P) (e : Fin P.vlmax) : RSpec → Word
  | .x r => s.readX r
  | .v r => (s.readV r)[e]

def OSpec.value (ext : BitVec 6 → Word) (s : State P) (e : Fin P.vlmax) : OSpec → Word
  | .x r => s.readX r
  | .v r => (s.readV r)[e]
  | .imm c => ext c

end Sys2Proof

namespace Sys2Proof.Machine

variable {P : Config.Params}

/-- The value of a source that a modifier word supplies: 0 without the word (30 R142). -/
def optValue (ext : BitVec 6 → Word) (s : State P) (e : Fin P.vlmax) : Option OSpec → Word
  | none => 0#64
  | some o => o.value ext s e

/-! ### Immediate constants -/

/-- The constant EXI words make of the low eleven bits of a field: `{P0, F[10:0]}` sign-extended to 64 bits,
or the low 64 bits of `{P1, P0, F[10:0]}`; EXI2 to EXI4 have no effect (30 R125). `none` without EXI0 and
EXI1. The payload of an EXI0 that is missing below EXI1 is a free value (log 11). -/
def exiConst (exi : Vector (Option (BitVec 28)) 5) (f : BitVec 11) : Option Word :=
  match exi[0], exi[1] with
  | none, none => none
  | some p0, none => some ((p0 ++ f).signExtend 64)
  | p0, some p1 => some ((p1 ++ p0.getD Config.exiAbsent ++ f).setWidth 64)

/-- How an RI constant without EXI words is extended (30 R127). -/
inductive ImmExt
  | signed
  | zeros
  | ones
  deriving DecidableEq, Repr

/-- Constant16 of an RI instruction (30 R126, R127). -/
def State.imm16 (s : State P) (k : ImmExt) (c : BitVec 16) : Word :=
  match exiConst s.mods.exi (c.setWidth 11), k with
  | some w, _ => w
  | none, .signed => c.signExtend 64
  | none, .zeros => c.setWidth 64
  | none, .ones => BitVec.allOnes 48 ++ c

/-- A load, store or CACHE displacement of `n` bits: sign-extended, or extended by EXI words,
or with STRIDE's Const15 directly above it (30 R122, R125 to R127, 44 R410); under both kinds of word
it is a free value (log 12). The type code of STRIDE's Rc, which is not used here, is `State.modsLegal`'s to check
(log 17). -/
def State.displacement {n : Nat} (s : State P) (c : BitVec n) : Word :=
  match s.mods.stride, exiConst s.mods.exi (c.setWidth 11) with
  | none, none => c.signExtend 64
  | none, some w => w
  | some t, none => (t.hi ++ c).signExtend 64
  | some t, some w => Config.strideExi t.hi w

/-! ### Element-wise execution -/

/-- The mask and zeroing bit of an instruction without a mask field: IMOD's when its A[0] is set
(30 R129). -/
def State.imodMask (s : State P) : Mask P × Bool :=
  match s.mods.imod with
  | some i => if i.a.extractLsb' 0 1 = 1#1 then (s.readM i.m, i.z) else (BitVec.allOnes P.vlmax, false)
  | none => (BitVec.allOnes P.vlmax, false)

/-- The mask and zeroing bit of a vector load or store: STRIDE's when its A[0] is set (44 R441). The
zeroing bit, which also selects zero extension, counts without a mask too. -/
def State.strideMask (s : State P) : Mask P × Bool :=
  match s.mods.stride with
  | some t => if t.a.extractLsb' 0 1 = 1#1 then (s.readM t.m, t.z) else (BitVec.allOnes P.vlmax, t.z)
  | none => (BitVec.allOnes P.vlmax, false)

/-- Whether element `e` takes part: below VL and enabled by the mask (30 R129). -/
def State.active (s : State P) (m : Mask P) (e : Fin P.vlmax) : Bool := decide (e.val < s.vl.toNat) && m.getLsbD e.val

/-- A vector target: an active element gets its result, an inactive one below VL is zeroed or kept, and
every element from VL on is kept; only elements below `bound` are written (30 R129, 60 R741). -/
def State.merge (s : State P) (m : Mask P) (z : Bool) (bound : Nat) (old : VReg P) (f : Fin P.vlmax → Word) : VReg P :=
  Vector.ofFn fun e =>
    if e.val < bound ∧ e.val < s.vl.toNat then
      if m.getLsbD e.val then f e else if z then 0#64 else old[e]
    else old[e]

/-- One operation on a scalar target (v = 0) or on each element of a vector target (v = 1); any other
combination of v and type codes raises Unimplemented (30 R129, R130). -/
def elementwise (v : Bool) (t : RSpec) (legal : Bool) (mz : Mask P × Bool) (f : Fin P.vlmax → Word) (s : State P) :
    Out P :=
  plain v s <|
    if legal then
      match v, t with
      | false, .x r => (s.writeX r (f P.first)).finish
      | true, .v r => (s.writeV r (s.merge mz.1 mz.2 P.vlmax (s.readV r) f)).finish
      | _, _ => s.unimplemented
    else s.unimplemented

/-- The lowest active element at which the operation fails, with its cause (60 R743). -/
def State.firstFail (s : State P) (m : Mask P) (fail : Fin P.vlmax → Option (BitVec 8)) :
    Option (Fin P.vlmax × BitVec 8) :=
  (List.finRange P.vlmax).findSome? fun e => if s.active m e then (fail e).map (e, ·) else none

/-- As `elementwise`, for an operation that may raise: a scalar one then writes nothing, a vector one
has written the elements below the failing one (60 R741). -/
def elementwiseTrap (v : Bool) (t : RSpec) (legal : Bool) (mz : Mask P × Bool)
    (fail : Fin P.vlmax → Option (BitVec 8)) (f : Fin P.vlmax → Word) (s : State P) : Out P :=
  plain v s <|
    if legal then
      match v, t with
      | false, .x r =>
        match fail P.first with
        | none => (s.writeX r (f P.first)).finish
        | some c => s.raiseExc (c.setWidth 64)
      | true, .v r =>
        match s.firstFail mz.1 fail with
        | none => (s.writeV r (s.merge mz.1 mz.2 P.vlmax (s.readV r) f)).finish
        | some (e, c) => (s.writeV r (s.merge mz.1 mz.2 e.val (s.readV r) f)).raiseExc (c.setWidth 64)
      | _, _ => s.unimplemented
    else s.unimplemented

/-! ### The formats -/

/-- One-source operation, R1 format: the mask is always in the word (30 R109, R129). -/
def opR1 (v : Bool) (o : R1) (f : Word → Word) (s : State P) : Out P :=
  elementwise v o.t (o.a.legal v) (s.readM o.m, o.z) (fun e => f (o.a.value s e)) s

/-- Two-source operation, R2 format (30 R108). -/
def opR2 (ext : BitVec 6 → Word) (v : Bool) (o : R2) (f : Word → Word → Word) (s : State P) : Out P :=
  elementwise v o.t (o.a.legal v && o.b.legal v) s.imodMask
    (fun e => f (o.a.value s e) (o.b.value ext s e)) s

/-- Two-source operation whose second source is the six-bit number in the Rb position. -/
def opR2I (v : Bool) (o : R2I) (f : Word → Word → Word) (s : State P) : Out P :=
  elementwise v o.t (o.a.legal v) s.imodMask (fun e => f (o.a.value s e) (zext6 o.imm)) s

/-- Two-source operation that may raise. -/
def opR2Trap (ext : BitVec 6 → Word) (v : Bool) (o : R2) (fail : Word → Word → Option (BitVec 8))
    (f : Word → Word → Word) (s : State P) : Out P :=
  elementwiseTrap v o.t (o.a.legal v && o.b.legal v) s.imodMask
    (fun e => fail (o.a.value s e) (o.b.value ext s e)) (fun e => f (o.a.value s e) (o.b.value ext s e)) s

/-- Register and immediate operation, RI format (30 R107). -/
def opRI (k : ImmExt) (v : Bool) (o : RI) (f : Word → Word → Word) (s : State P) : Out P :=
  elementwise v o.t (o.a.legal v) s.imodMask (fun e => f (o.a.value s e) (s.imm16 k o.imm)) s

/-- Three-source operation: A, B and IMOD's C (30 R110, R142). -/
def opR3 (ext extC : BitVec 6 → Word) (v : Bool) (o : R2) (f : Word → Word → Word → Word) (s : State P) : Out P :=
  elementwise v o.t (o.a.legal v && o.b.legal v) s.imodMask
    (fun e => f (o.a.value s e) (o.b.value ext s e) (optValue extC s e s.specC)) s

/-- Four-source operation: A, B and IMOD's C and D (30 R110, R142). -/
def opR4 (ext extC extD : BitVec 6 → Word) (v : Bool) (o : R2) (f : Word → Word → Word → Word → Word)
    (s : State P) : Out P :=
  elementwise v o.t (o.a.legal v && o.b.legal v) s.imodMask
    (fun e => f (o.a.value s e) (o.b.value ext s e) (optValue extC s e s.specC) (optValue extD s e s.specD)) s

end Sys2Proof.Machine
end

