-- ==== Sys2Proof/Machine/Bitfield.lean ====
section
/-! DEFINITION. The integer instructions that take C and D from IMOD (30 R135, 40 R222 to R242, 41 R272, R291, R318). -/

namespace Sys2Proof.Machine

variable {P : Config.Params}

/-- MUX (40 R242). -/
def execMux (v : Bool) (o : R2) (s : State P) : Out P :=
  opR3 sext6 sext6 v o (fun a b c => (a &&& b) ||| (~~~a &&& c)) s

/-- SLLP (41 R291). -/
def execSllp (v : Bool) (o : R2) (s : State P) : Out P :=
  opR3 zext6 sext6 v o sllpWord s

/-- SLLPI (41 R318). -/
def execSllpi (v : Bool) (o : R2I) (s : State P) : Out P :=
  elementwise v o.t (o.a.legal v) s.imodMask
    (fun e => sllpWord (o.a.value s e) (zext6 o.imm) (optValue sext6 s e s.specC)) s

/-- PTRDIF (41 R272). -/
def execPtrdif (v : Bool) (o : R2) (s : State P) : Out P :=
  opR3 sext6 zext6 v o ptrdifWord s

/-- DEP (40 R223). -/
def execDep (v : Bool) (o : R2) (s : State P) : Out P :=
  opR4 sext6 zext6 zext6 v o depWord s

/-- EXT (40 R224). -/
def execExt (v : Bool) (o : R2) (s : State P) : Out P :=
  opR4 sext6 zext6 zext6 v o extWord s

/-- EXTU (40 R225). -/
def execExtu (v : Bool) (o : R2) (s : State P) : Out P :=
  opR4 sext6 zext6 zext6 v o extuWord s

/-- FFO; the Rb field is unused (40 R235). -/
def execFfo (v : Bool) (o : R2) (s : State P) : Out P :=
  elementwise v o.t (o.a.legal v) s.imodMask
    (fun e => ffoWord (o.a.value s e) (optValue zext6 s e s.specC) (optValue zext6 s e s.specD)) s

end Sys2Proof.Machine
end

