-- ==== Sys2Proof/Machine/Check.lean ====
section
/-! DEFINITION. CHK (45 R504, R505). -/

namespace Sys2Proof.Machine

variable {P : Config.Params}

/-- A bounds check of one value, or of each active element below VL in ascending order; the first
failure raises (45 R504, R505). No register is written. -/
def checkBounds (v legal : Bool) (ok : Fin P.vlmax → Bool) (s : State P) : Out P :=
  plain v s <|
    if legal then
      if v then
        if (List.finRange P.vlmax).all fun e => !s.active s.imodMask.1 e || ok e then s.finish
        else s.raiseExc (P.causeChk.setWidth 64)
      else if ok P.first then s.finish else s.raiseExc (P.causeChk.setWidth 64)
    else s.unimplemented

/-- CHK immediate (45 R504). -/
def execChkImmediate (v : Bool) (o : ChkI) (s : State P) : Out P :=
  checkBounds v (o.a.legal v)
    (fun e => inBounds o.cn (o.a.value s e) (optValue sext6 s e s.specC) (s.imm16 .signed o.imm)) s

/-- CHK R3 form (45 R505). -/
def execChkR3Form (v : Bool) (o : ChkR) (s : State P) : Out P :=
  checkBounds v (o.a.legal v && o.b.legal v)
    (fun e => inBounds o.cn (o.a.value s e) (o.b.value sext6 s e) (optValue sext6 s e s.specC)) s

end Sys2Proof.Machine
end

