-- ==== Sys2Proof/Machine/System.lean ====
section
/-! DEFINITION. The system instructions other than EXEC and MYST (46), and NOP (30 R141). -/

namespace Sys2Proof.Machine

variable {P : Config.Params}

/-- The common part of the CSR instructions: the privilege check, then read, update and write; `new`
gives the value written, or none for a pure read (46 R545). -/
def csrAccess (o : Csr) (new : Word → Option Word) (s : State P) : Out P :=
  plain false s <|
    if s.mode.index.val < (o.regno.extractLsb' 12 4).toNat then s.raiseExc (P.causePriv.setWidth 64)
    else
      let old := s.csrRead o.regno
      match new old with
      | none => (s.writeX o.rt old).finish
      | some a => ((s.csrWrite o.regno a).writeX o.rt old).finish

/-- A pop of queue `q` into a scalar register (46 R558, R559). -/
def popInto (q : QueueNo P) (t : RSpec) (s : State P) : State P :=
  match t with
  | .x rt => ((s.popQueue q).writeX rt (s.queueTop q)).finish
  | .v _ => s.unimplemented

/-- A value into a scalar register. -/
def answer (t : RSpec) (a : Word) (s : State P) : State P :=
  match t with
  | .x rt => (s.writeX rt a).finish
  | .v _ => s.unimplemented

/-- The queue a scalar register names, as an argument. -/
def withQueue (a : RSpec) (f : QueueNo P → State P) (s : State P) : State P :=
  match a with
  | .x ra => f (queueNumber (s.readX ra).toNat)
  | .v _ => s.unimplemented

/-- WFI: the core stalls at the instruction while the level is 0, and goes on to `next` otherwise
(46 R568, 60 R752). -/
def waitForInterrupt (s next : State P) : State P :=
  if s.irq.level = 0#4 then { s with waiting := true } else { next with waiting := false }

/-- PFI: the interrupt is taken if there is one, whatever the enable bit (46 R565, 60 R751). -/
def pollInterrupt (rt : BitVec 5) (s next : State P) : State P :=
  if s.irq.level = 0#4 then next else (s.writeX rt s.irq.word).raiseExc s.irq.word

/-- BRK (46 R541). -/
def execBrk (cause : BitVec 8) (s : State P) : Out P :=
  plain false s (s.raiseExc (cause.setWidth 64))

/-- CSRRD (46 R546). -/
def execCsrrd (o : Csr) (s : State P) : Out P :=
  csrAccess o (fun _ => none) s

/-- CSRRW (46 R547). -/
def execCsrrw (o : Csr) (s : State P) : Out P :=
  csrAccess o (fun _ => some (s.readX o.ra)) s

/-- CSRRS (46 R548). -/
def execCsrrs (o : Csr) (s : State P) : Out P :=
  csrAccess o (fun old => some (old ||| s.readX o.ra)) s

/-- CSRRC (46 R549). -/
def execCsrrc (o : Csr) (s : State P) : Out P :=
  csrAccess o (fun old => some (old &&& ~~~(s.readX o.ra))) s

/-- PUSHQ (46 R556). -/
def execPushq (b : OSpec) (a : RSpec) (s : State P) : Out P :=
  plain false s <|
    match a with
    | .x ra =>
      if b.legal false then (s.pushQueue (queueNumber (b.value sext6 s P.first).toNat) (s.readX ra)).finish
      else s.unimplemented
    | .v _ => s.unimplemented

/-- PUSHQI (46 R557). -/
def execPushqi (q : BitVec 6) (a : RSpec) (s : State P) : Out P :=
  plain false s <|
    match a with
    | .x ra => (s.pushQueue (queueNumber q.toNat) (s.readX ra)).finish
    | .v _ => s.unimplemented

/-- POPQ (46 R558). -/
def execPopq (a : RSpec) (t : RSpec) (s : State P) : Out P :=
  plain false s (withQueue a (fun q => popInto q t s) s)

/-- POPQI (46 R559). -/
def execPopqi (q : BitVec 6) (t : RSpec) (s : State P) : Out P :=
  plain false s (popInto (queueNumber q.toNat) t s)

/-- PEEKQ (46 R560). -/
def execPeekq (a : RSpec) (t : RSpec) (s : State P) : Out P :=
  plain false s (withQueue a (fun q => answer t (s.queueTop q) s) s)

/-- PEEKQI (46 R561). -/
def execPeekqi (q : BitVec 6) (t : RSpec) (s : State P) : Out P :=
  plain false s (answer t (s.queueTop (queueNumber q.toNat)) s)

/-- STATQ (46 R562). -/
def execStatq (a : RSpec) (t : RSpec) (s : State P) : Out P :=
  plain false s (withQueue a (fun q => answer t (s.queueStatus q) s) s)

/-- STATQI (46 R563). -/
def execStatqi (q : BitVec 6) (t : RSpec) (s : State P) : Out P :=
  plain false s (answer t (s.queueStatus (queueNumber q.toNat)) s)

/-- REX (46 R566). -/
def execRex (tm : BitVec 2) (s : State P) : Out P :=
  plain false s <|
    if tm.toNat < s.mode.index.val && P.rexEnable s.view (Mode.ofField tm) then s.redirect tm else s.finish

/-- PFI (46 R565). -/
def execPfi (t : RSpec) (s : State P) : Out P :=
  plain false s <|
    match t with
    | .x rt => pollInterrupt rt s s.finish
    | .v _ => s.unimplemented

/-- WFI (46 R568). -/
def execWfi (s : State P) : Out P :=
  plain false s (waitForInterrupt s s.finish)

/-- RTE (46 R567). -/
def execRte (b : OSpec) (offset : BitVec 12) (s : State P) : Out P :=
  plain false s (if b.legal false then s.returnExc (b.value zext6 s P.first) (offset.setWidth 64) else s.unimplemented)

/-- SYNC: no change of state (46 R572). -/
def execSync (s : State P) : Out P :=
  plain false s s.finish

/-- TLBRW: scalar registers only (46 R575). DESIGN CHOICE (log 34): with fewer than 4 ways or 1024 entries the way and
the entry number are taken modulo TLB_WAYS and TLB_ENTRIES. -/
def execTlbrw (o : R2) (s : State P) : Out P :=
  plain false s <|
    match o.b, o.a, o.t with
    | .x rb, .x ra, .x rt =>
      let sel := s.readX ra
      let k := (sel.extractLsb' 10 2).toNat % P.tlbWays * P.tlbEntries + (sel.extractLsb' 0 10).toNat % P.tlbEntries
      let t : State P := if sel.extractLsb' 63 1 = 1#1 then { s with tlb := sparseSet s.tlb k (s.readX rb) } else s
      (t.writeX rt (sparseGet s.tlb k)).finish
    | _, _, _ => s.unimplemented

/-- NOP (30 R141). -/
def execNop (v : Bool) (s : State P) : Out P :=
  plain v s s.finish

/-- LLAL: raises Unimplemented (46 R590). -/
def execLlal (s : State P) : Out P :=
  .next s.unimplemented

/-- LLAH: raises Unimplemented (46 R590). -/
def execLlah (s : State P) : Out P :=
  .next s.unimplemented

/-- LPAL: raises Unimplemented (46 R590). -/
def execLpal (s : State P) : Out P :=
  .next s.unimplemented

/-- LPAH: raises Unimplemented (46 R590). -/
def execLpah (s : State P) : Out P :=
  .next s.unimplemented

/-- SETKEY: raises Unimplemented (46 R590). -/
def execSetkey (s : State P) : Out P :=
  .next s.unimplemented

/-- SETTO: raises Unimplemented (46 R590). -/
def execSetto (s : State P) : Out P :=
  .next s.unimplemented

/-- GETTO: raises Unimplemented (46 R590). -/
def execGetto (s : State P) : Out P :=
  .next s.unimplemented

/-- GETZL: raises Unimplemented (46 R590). -/
def execGetzl (s : State P) : Out P :=
  .next s.unimplemented

/-- MVSEG: raises Unimplemented (46 R590). -/
def execMvseg (s : State P) : Out P :=
  .next s.unimplemented

/-- CSAVE: raises Unimplemented (46 R590). -/
def execCsave (s : State P) : Out P :=
  .next s.unimplemented

/-- CRESTORE: raises Unimplemented (46 R590). -/
def execCrestore (s : State P) : Out P :=
  .next s.unimplemented

end Sys2Proof.Machine
end

