-- ==== Sys2Proof/Machine/Compressed.lean ====
section
/-! DEFINITION. The 20-bit instructions (48). -/

namespace Sys2Proof.Machine

variable {P : Config.Params}

/-- A two-register operation on three-bit register numbers: Unimplemented while CREG_MAP is not supplied
(48 R697). -/
def opCreg (map : Option (BitVec 3 → BitVec 5)) (rb rt : BitVec 3) (f : Word → Word → Word) (s : State P) : Out P :=
  match map with
  | none => .next s.unimplemented
  | some m => short s (s.writeX (m rt) (f (s.readX (m rt)) (s.readX (m rb)))).finishShort

/-- The frame address of the FP and SP forms: a signed count of octas (48 R679). -/
def frameAddr (base : BitVec 5) (k : BitVec 7) (s : State P) : Word := s.readX base + k.signExtend 64 <<< 3

/-- A load of an octa at a frame address (48 R679, R680). -/
def shortLoad (base : BitVec 5) (k : BitVec 7) (r : BitVec 5) (s : State P) : Out P :=
  shortOut s <|
    accessing s ⟨.load, [(frameAddr base k s, 8)]⟩ (.next (s.writeX r (s.load (frameAddr base k s) 8)).finishShort)

/-- A store of an octa at a frame address (48 R681, R682). -/
def shortStore (base : BitVec 5) (k : BitVec 7) (r : BitVec 5) (s : State P) : Out P :=
  shortOut s <|
    accessing s ⟨.store, [(frameAddr base k s, 8)]⟩ (.next (s.store (frameAddr base k s) 8 (s.readX r)).finishShort)

/-- A compressed conditional branch, relative to its own address (48 R691). -/
def shortBranch (k : BitVec 7) (taken : Bool) (s : State P) : Out P :=
  short s (s.jump (if taken then s.ip + k.signExtend 64 else s.ip + 5#64))

/-- c.RTI (48 R675). -/
def execCRti (s : State P) : Out P :=
  short s (s.returnExc 0#64 0#64)

/-- c.PFI (48 R676). -/
def execCPfi (s : State P) : Out P :=
  short s (pollInterrupt 0#5 s s.finishShort)

/-- c.WFI (48 R677). -/
def execCWfi (s : State P) : Out P :=
  short s (waitForInterrupt s s.finishShort)

/-- c.SYNC (48 R678). -/
def execCSync (s : State P) : Out P :=
  short s s.finishShort

/-- c.BRK (48 R674). -/
def execCBrk (cause : BitVec 7) (s : State P) : Out P :=
  short s (s.raiseExc (cause.setWidth 64))

/-- c.LDO FP (48 R679). -/
def execCLdoFp (k : BitVec 7) (r : BitVec 5) (s : State P) : Out P :=
  shortLoad fpReg k r s

/-- c.LDO SP (48 R680). -/
def execCLdoSp (k : BitVec 7) (r : BitVec 5) (s : State P) : Out P :=
  shortLoad spReg k r s

/-- c.STO FP (48 R681). -/
def execCStoFp (k : BitVec 7) (r : BitVec 5) (s : State P) : Out P :=
  shortStore fpReg k r s

/-- c.STO SP (48 R682). -/
def execCStoSp (k : BitVec 7) (r : BitVec 5) (s : State P) : Out P :=
  shortStore spReg k r s

/-- c.JMP  c.JAL (48 R683). -/
def execCJmp (ra : BitVec 5) (rt : BitVec 2) (s : State P) : Out P :=
  short s ((s.writeX (linkReg rt) (s.ip + 5#64)).jump (s.readX ra))

/-- c.MOV (48 R684). -/
def execCMov (ra : BitVec 5) (rt : BitVec 5) (s : State P) : Out P :=
  short s (s.writeX rt (s.readX ra)).finishShort

/-- c.ADD (48 R685). -/
def execCAdd (ra : BitVec 5) (rt : BitVec 5) (s : State P) : Out P :=
  short s (s.writeX rt (s.readX rt + s.readX ra)).finishShort

/-- c.AND (48 R686). -/
def execCAnd (ra : BitVec 5) (rt : BitVec 5) (s : State P) : Out P :=
  short s (s.writeX rt (s.readX rt &&& s.readX ra)).finishShort

/-- c.ADDI, and c.ADDI8 SP where the register is x30 (48 R687). -/
def execCAddi (k : BitVec 7) (r : BitVec 5) (s : State P) : Out P :=
  short s
    (s.writeX r (s.readX r + (if r = spReg then k.signExtend 64 <<< 3 else k.signExtend 64))).finishShort

/-- c.ANDI (48 R688). -/
def execCAndi (k : BitVec 7) (r : BitVec 5) (s : State P) : Out P :=
  short s (s.writeX r (s.readX r &&& (BitVec.allOnes 57 ++ k))).finishShort

/-- c.ORI (48 R689). -/
def execCOri (k : BitVec 7) (r : BitVec 5) (s : State P) : Out P :=
  short s (s.writeX r (s.readX r ||| k.setWidth 64)).finishShort

/-- c.LDI (48 R690). -/
def execCLdi (k : BitVec 7) (r : BitVec 5) (s : State P) : Out P :=
  short s (s.writeX r (k.signExtend 64)).finishShort

/-- c.BEQZ (48 R691). -/
def execCBeqz (k : BitVec 7) (r : BitVec 5) (s : State P) : Out P :=
  shortBranch k (s.readX r == 0#64) s

/-- c.BNEZ (48 R692). -/
def execCBnez (k : BitVec 7) (r : BitVec 5) (s : State P) : Out P :=
  shortBranch k (s.readX r != 0#64) s

/-- c.BAL  c.BRA (48 R693). -/
def execCBal (k : BitVec 10) (rt : BitVec 2) (s : State P) : Out P :=
  short s ((s.writeX (linkReg rt) (s.ip + 5#64)).jump (s.ip + k.signExtend 64))

/-- c.SLLI (48 R694). -/
def execCSlli (k : BitVec 5) (rt : BitVec 5) (s : State P) : Out P :=
  short s (s.writeX rt (s.readX rt <<< k.toNat)).finishShort

/-- c.SRLI (48 R695). -/
def execCSrli (k : BitVec 5) (rt : BitVec 5) (s : State P) : Out P :=
  short s (s.writeX rt (s.readX rt >>> k.toNat)).finishShort

/-- c.SRAI (48 R696). -/
def execCSrai (k : BitVec 5) (rt : BitVec 5) (s : State P) : Out P :=
  short s (s.writeX rt ((s.readX rt).sshiftRight k.toNat)).finishShort

/-- c.SUB (48 R698). -/
def execCSub (rb : BitVec 3) (rt : BitVec 3) (s : State P) : Out P :=
  opCreg P.cregMap rb rt (fun a b => a - b) s

/-- c.OR (48 R699). -/
def execCOr (rb : BitVec 3) (rt : BitVec 3) (s : State P) : Out P :=
  opCreg P.cregMap rb rt (fun a b => a ||| b) s

/-- c.XOR (48 R700). -/
def execCXor (rb : BitVec 3) (rt : BitVec 3) (s : State P) : Out P :=
  opCreg P.cregMap rb rt (fun a b => a ^^^ b) s

/-- c.NAND (48 R701). -/
def execCNand (rb : BitVec 3) (rt : BitVec 3) (s : State P) : Out P :=
  opCreg P.cregMap rb rt (fun a b => ~~~(a &&& b)) s

/-- c.NOR (48 R702). -/
def execCNor (rb : BitVec 3) (rt : BitVec 3) (s : State P) : Out P :=
  opCreg P.cregMap rb rt (fun a b => ~~~(a ||| b)) s

/-- c.LDM SP (48 R705). -/
def execCLdmSp (list : BitVec 11) (e : Bool) (s : State P) : Out P :=
  match P.cldmSemantics with
  | none => .next s.unimplemented
  | some f => short s (s.withView (f (list ++ BitVec.ofBool e) s.view))

/-- 7Ch unlisted codes: raises Unimplemented (48 R703). -/
def execC7chUnlisted (s : State P) : Out P :=
  .next s.unimplemented

/-- 7Dh reserved: raises Unimplemented (48 R704). -/
def execC7dhReserved (s : State P) : Out P :=
  .next s.unimplemented

/-- 7Fh no row: raises Unimplemented (48 R706). -/
def execC7fhNoRow (s : State P) : Out P :=
  .next s.unimplemented

/-- 74h bits 19 18  00 bits 12 10 not 0: raises Unimplemented (48 R683). -/
def execC74hReserved (s : State P) : Out P :=
  .next s.unimplemented

end Sys2Proof.Machine
end

