-- ==== Sys2Proof/Machine/Fp.lean ====
section
/-! DEFINITION. IEEE 754 binary64 arithmetic (42 R341, R342): exact integer arithmetic on unpacked
values and one rounding at the end. A result that is a NaN is the canonical quiet NaN. -/

namespace Sys2Proof.Machine

variable {P : Config.Params}

open Config (Rounding)

/-- A binary64 value; `fin neg m e` is `(-1)^neg * m * 2^e`. -/
inductive FpVal
  | nan
  | inf (neg : Bool)
  | fin (neg : Bool) (m : Nat) (e : Int)
  deriving DecidableEq, Repr

/-- The canonical quiet NaN (42 R341). -/
def fpNan : Word := 0x7ff8000000000000#64

/-- A sign over a 63-bit magnitude. -/
def fpPack (neg : Bool) (mag : Nat) : Word := BitVec.ofBool neg ++ BitVec.ofNat 63 mag

def fpInf (neg : Bool) : Word := fpPack neg 0x7ff0000000000000

/-- The value of a pattern: subnormals have exponent field 0 (42 R341). -/
def fpUnpack (a : Word) : FpVal :=
  let neg := a.extractLsb' 63 1 == 1#1
  let e := (a.extractLsb' 52 11).toNat
  let f := (a.extractLsb' 0 52).toNat
  if e = 2047 then (if f = 0 then .inf neg else .nan)
  else if e = 0 then .fin neg f (-1074)
  else .fin neg (2 ^ 52 + f) ((e : Int) - 1075)

/-- `m / 2^sh` rounded to an integer; `sticky` says that a further non-zero part lies below. -/
def roundShift (mode : Rounding) (neg : Bool) (m sh : Nat) (sticky : Bool) : Nat :=
  let q := m / 2 ^ sh
  let r := 2 * (m % 2 ^ sh)
  let exact := r == 0 && !sticky
  let up : Bool :=
    match mode with
    | .nearestEven => decide (2 ^ sh < r) || (r == 2 ^ sh && (sticky || q % 2 == 1))
    | .nearestAway => decide (2 ^ sh ≤ r)
    | .towardZero => false
    | .up => !exact && !neg
    | .down => !exact && neg
  if up then q + 1 else q

/-- The pattern of `(-1)^neg * m * 2^e`, rounded once. With `sticky`, `m` has at least 55 bits. -/
def fpRound (mode : Rounding) (neg : Bool) (m : Nat) (e : Int) (sticky : Bool) : Word :=
  if m = 0 then fpPack neg 0
  else
    let q : Int := max (e + (Nat.log2 m : Int) - 52) (-1074)
    let r : Nat := if q ≤ e then m * 2 ^ (e - q).toNat else roundShift mode neg m (q - e).toNat sticky
    let mag := (q + 1074).toNat * 2 ^ 52 + r
    if 0x7ff0000000000000 ≤ mag then
      let stays : Bool :=
        match mode with
        | .nearestEven => false
        | .nearestAway => false
        | .towardZero => true
        | .up => neg
        | .down => !neg
      if stays then fpPack neg 0x7fefffffffffffff else fpInf neg
    else fpPack neg mag

def FpVal.neg : FpVal → FpVal
  | .nan => .nan
  | .inf s => .inf !s
  | .fin s m e => .fin (!s) m e

/-- The exact product. -/
def FpVal.mul : FpVal → FpVal → FpVal
  | .nan, _ => .nan
  | _, .nan => .nan
  | .inf s, .inf t => .inf (s != t)
  | .inf s, .fin t m _ => if m = 0 then .nan else .inf (s != t)
  | .fin t m _, .inf s => if m = 0 then .nan else .inf (s != t)
  | .fin s m e, .fin t n f => .fin (s != t) (m * n) (e + f)

/-- The signed integer of a finite value in units of `2^u`, for u at most its exponent. -/
def fpScaled (neg : Bool) (m : Nat) (e u : Int) : Int :=
  let k : Int := (m * 2 ^ (e - u).toNat : Nat)
  if neg then -k else k

/-- The sum of two values, rounded once. A zero sum of two values keeps a common sign and is otherwise
+0, or -0 when rounding down. -/
def fpAddRound (mode : Rounding) : FpVal → FpVal → Word
  | .nan, _ => fpNan
  | _, .nan => fpNan
  | .inf s, .inf t => if s = t then fpInf s else fpNan
  | .inf s, .fin .. => fpInf s
  | .fin .., .inf t => fpInf t
  | .fin s m e, .fin t n f =>
    let u := min e f
    let k := fpScaled s m e u + fpScaled t n f u
    if k = 0 then
      (if s = t then fpPack s 0 else fpPack (mode == .down) 0)
    else fpRound mode (decide (k < 0)) k.natAbs u false

/-- A value rounded to a pattern. -/
def fpOf (mode : Rounding) : FpVal → Word
  | .nan => fpNan
  | .inf s => fpInf s
  | .fin s m e => fpRound mode s m e false

def fpAdd (mode : Rounding) (a b : Word) : Word := fpAddRound mode (fpUnpack a) (fpUnpack b)
def fpSub (mode : Rounding) (a b : Word) : Word := fpAddRound mode (fpUnpack a) (fpUnpack b).neg
def fpMul (mode : Rounding) (a b : Word) : Word := fpOf mode ((fpUnpack a).mul (fpUnpack b))

/-- FDIV (42 R357): x / 0 is an infinity, 0 / 0 and infinity / infinity are NaN. -/
def fpDiv (mode : Rounding) (a b : Word) : Word :=
  match fpUnpack a, fpUnpack b with
  | .nan, _ => fpNan
  | _, .nan => fpNan
  | .inf _, .inf _ => fpNan
  | .inf s, .fin t _ _ => fpInf (s != t)
  | .fin s _ _, .inf t => fpPack (s != t) 0
  | .fin s m e, .fin t n f =>
    if n = 0 then (if m = 0 then fpNan else fpInf (s != t))
    else
      fpRound mode (s != t) (m * 2 ^ 110 / n) (e - f - 110) (m * 2 ^ 110 % n != 0)

/-- FSQRT (42 R350): of a negative number NaN, of -0 -0. -/
def fpSqrt (mode : Rounding) (a : Word) : Word :=
  match fpUnpack a with
  | .nan => fpNan
  | .inf s => if s then fpNan else fpInf false
  | .fin s m e =>
    if m = 0 then fpPack s 0
    else if s then fpNan
    else
      let k : Nat := if e % 2 = 0 then 116 else 117
      let x := m * 2 ^ k
      let r := isqrtFrom x 86 0
      fpRound mode false r ((e - k) / 2) (r * r != x)

/-- The fused operations: product and sum exact, one rounding (42 R372, R373). -/
def fpFma (mode : Rounding) (a b c : Word) : Word :=
  fpAddRound mode ((fpUnpack a).mul (fpUnpack b)) (fpUnpack c)
def fpFms (mode : Rounding) (a b c : Word) : Word :=
  fpAddRound mode ((fpUnpack a).mul (fpUnpack b)) (fpUnpack c).neg
def fpFnma (mode : Rounding) (a b c : Word) : Word :=
  fpAddRound mode ((fpUnpack a).mul (fpUnpack b)).neg (fpUnpack c)
def fpFnms (mode : Rounding) (a b c : Word) : Word :=
  fpAddRound mode ((fpUnpack a).mul (fpUnpack b)).neg (fpUnpack c).neg
def fpDot (mode : Rounding) (a b c d : Word) : Word :=
  fpAddRound mode ((fpUnpack a).mul (fpUnpack b)) ((fpUnpack c).mul (fpUnpack d))

/-- FTOI (42 R380): the nearest integer in the mode, saturated; a NaN gives 0. -/
def fpToInt (mode : Rounding) (a : Word) : Word :=
  match fpUnpack a with
  | .nan => 0#64
  | .inf s => if s then 1#64 <<< 63 else BitVec.ofNat 64 (2 ^ 63 - 1)
  | .fin s m e =>
    let r : Nat := if 0 ≤ e then m * 2 ^ e.toNat else roundShift mode s m (-e).toNat false
    if s then (if 2 ^ 63 ≤ r then 1#64 <<< 63 else BitVec.ofInt 64 (-(r : Int)))
    else BitVec.ofNat 64 (min r (2 ^ 63 - 1))

/-- ITOF (42 R380). -/
def fpOfInt (mode : Rounding) (a : Word) : Word :=
  fpRound mode (decide (a.toInt < 0)) a.toInt.natAbs 0 false

/-- TRUNC (42 R380): rounded toward zero to an integral value. -/
def fpTrunc (a : Word) : Word :=
  match fpUnpack a with
  | .nan => fpNan
  | .inf s => fpInf s
  | .fin s m e => if 0 ≤ e then a else fpRound .towardZero s (m / 2 ^ (-e).toNat) 0 false

/-- ISNAN and FINITE (42 R380). -/
def fpIsFinite (a : Word) : Bool := decide (fpMag a < 0x7ff0000000000000)

/-- FMIN and FMAX, taken literally (42 R358, R359). -/
def fpMin (a b : Word) : Word := if fpLt a b then a else b
def fpMax (a b : Word) : Word := if fpLt b a then a else b

/-- Sign-magnitude sign operations (42 R344, R346, R348) and CPYSGN (42 R381). -/
def signClear (a : Word) : Word := a &&& 0x7fffffffffffffff#64
def signSet (a : Word) : Word := a ||| 0x8000000000000000#64
def signFlip (a : Word) : Word := a ^^^ 0x8000000000000000#64
def copySign (a b : Word) : Word := b.extractLsb' 63 1 ++ a.extractLsb' 0 63

/-- The rounding mode of an instruction other than SQRT: IMOD's Rm3 when its A[1] is set (42 R342). -/
def State.rounding (s : State P) : Rounding :=
  match s.mods.imod with
  | some i => if i.a.extractLsb' 1 1 = 1#1 then P.rmDecode i.rm else .nearestEven
  | none => .nearestEven

/-- The rounding mode of SQRT: IMOD's when its A[1] is set, else the word's own (42 R342). -/
def State.sqrtRounding (s : State P) (rm : BitVec 3) : Rounding :=
  match s.mods.imod with
  | some i => if i.a.extractLsb' 1 1 = 1#1 then P.rmDecode i.rm else P.rmDecode rm
  | none => P.rmDecode rm

end Sys2Proof.Machine
end

