-- ==== Sys2Proof/Machine/Decimal.lean ====
section
/-! DEFINITION. The decimal-float and posit instructions (42 R343 to R382). -/

namespace Sys2Proof.Machine

variable {P : Config.Params}

/-- A two-source operation of a format whose arithmetic is a parameter: Unimplemented while it is not
supplied; else the parameter's result for A and B (42 R343; log 29). -/
def opNumber (ops : Option Config.NumberOps) (func : BitVec 7) (v : Bool) (o : R2) (s : State P) : Out P :=
  match ops with
  | none => .next s.unimplemented
  | some f => opR2 float6 v o (fun a b => f func [a, b] s.rounding) s

/-- A square root of such a format, the parameter's result for A alone (42 R343, R351). -/
def opNumberSqrt (ops : Option Config.NumberOps) (v : Bool) (rm : BitVec 3) (o : R1) (s : State P) : Out P :=
  match ops with
  | none => .next s.unimplemented
  | some f => opR1 v o (fun a => f 0x08#7 [a] (s.sqrtRounding rm)) s

/-- DFABS (42 R345). -/
def execDfabs (v : Bool) (o : R1) (s : State P) : Out P :=
  opR1 v o signClear s

/-- DFNABS (42 R347). -/
def execDfnabs (v : Bool) (o : R1) (s : State P) : Out P :=
  opR1 v o signSet s

/-- DFNEG (42 R349). -/
def execDfneg (v : Bool) (o : R1) (s : State P) : Out P :=
  opR1 v o signFlip s

/-- PABS (42 R345). -/
def execPabs (v : Bool) (o : R1) (s : State P) : Out P :=
  opR1 v o absWord s

/-- PNABS (42 R347). -/
def execPnabs (v : Bool) (o : R1) (s : State P) : Out P :=
  opR1 v o nabsWord s

/-- PNEG (42 R349). -/
def execPneg (v : Bool) (o : R1) (s : State P) : Out P :=
  opR1 v o (fun a => 0#64 - a) s

/-- DFSQRT (42 R351). -/
def execDfsqrt (v : Bool) (rm : BitVec 3) (o : R1) (s : State P) : Out P :=
  opNumberSqrt P.dfpOps v rm o s

/-- PSQRT (42 R351). -/
def execPsqrt (v : Bool) (rm : BitVec 3) (o : R1) (s : State P) : Out P :=
  opNumberSqrt P.positOps v rm o s

/-- DFMIN (42 R343). -/
def execDfmin (v : Bool) (o : R2) (s : State P) : Out P :=
  opNumber P.dfpOps 0x2#7 v o s

/-- DFMAX (42 R343). -/
def execDfmax (v : Bool) (o : R2) (s : State P) : Out P :=
  opNumber P.dfpOps 0x3#7 v o s

/-- DFADD (42 R353). -/
def execDfadd (v : Bool) (o : R2) (s : State P) : Out P :=
  opNumber P.dfpOps 0x4#7 v o s

/-- DFSUB (42 R355). -/
def execDfsub (v : Bool) (o : R2) (s : State P) : Out P :=
  opNumber P.dfpOps 0x5#7 v o s

/-- DFMUL (42 R356). -/
def execDfmul (v : Bool) (o : R2) (s : State P) : Out P :=
  opNumber P.dfpOps 0x8#7 v o s

/-- DFDIV (42 R357). -/
def execDfdiv (v : Bool) (o : R2) (s : State P) : Out P :=
  opNumber P.dfpOps 0x9#7 v o s

/-- DFCMP (42 R364). -/
def execDfcmp (v : Bool) (o : R2) (s : State P) : Out P :=
  opNumber P.dfpOps 0x10#7 v o s

/-- DFSEQ (42 R343). -/
def execDfseq (v : Bool) (o : R2) (s : State P) : Out P :=
  opNumber P.dfpOps 0x11#7 v o s

/-- DFSLT (42 R367). -/
def execDfslt (v : Bool) (o : R2) (s : State P) : Out P :=
  opNumber P.dfpOps 0x12#7 v o s

/-- DFSLE (42 R368). -/
def execDfsle (v : Bool) (o : R2) (s : State P) : Out P :=
  opNumber P.dfpOps 0x13#7 v o s

/-- DFSNE (42 R366). -/
def execDfsne (v : Bool) (o : R2) (s : State P) : Out P :=
  opNumber P.dfpOps 0x14#7 v o s

/-- DFCMPB (42 R364). -/
def execDfcmpb (v : Bool) (o : R2) (s : State P) : Out P :=
  opNumber P.dfpOps 0x15#7 v o s

/-- CPYSGN decimal float (42 R343). -/
def execCpysgnDecimal (v : Bool) (o : R2) (s : State P) : Out P :=
  opNumber P.dfpOps 0x18#7 v o s

/-- PADD (42 R353). -/
def execPadd (v : Bool) (o : R2) (s : State P) : Out P :=
  opNumber P.positOps 0x4#7 v o s

/-- PSUB (42 R355). -/
def execPsub (v : Bool) (o : R2) (s : State P) : Out P :=
  opNumber P.positOps 0x5#7 v o s

/-- PMUL (42 R356). -/
def execPmul (v : Bool) (o : R2) (s : State P) : Out P :=
  opNumber P.positOps 0x8#7 v o s

/-- PDIV (42 R357). -/
def execPdiv (v : Bool) (o : R2) (s : State P) : Out P :=
  opNumber P.positOps 0x9#7 v o s

/-- PSLE PSGE with operands swapped (42 R369). -/
def execPsle (v : Bool) (o : R2) (s : State P) : Out P :=
  opNumber P.positOps 0x13#7 v o s

/-- DFREM: raises Unimplemented (42 R343). -/
def execDfrem (_ : Bool) (_ : R2) (s : State P) : Out P :=
  .next s.unimplemented

/-- DFNXT: raises Unimplemented (42 R343). -/
def execDfnxt (_ : Bool) (_ : R2) (s : State P) : Out P :=
  .next s.unimplemented

/-- DFSETM: raises Unimplemented (42 R343). -/
def execDfsetm (_ : Bool) (_ : R2) (s : State P) : Out P :=
  .next s.unimplemented

/-- SCALEB decimal float: raises Unimplemented (42 R343). -/
def execScalebDecimal (_ : Bool) (_ : R2) (s : State P) : Out P :=
  .next s.unimplemented

/-- SGNINV decimal float: raises Unimplemented (42 R343). -/
def execSgninvDecimal (_ : Bool) (_ : R2) (s : State P) : Out P :=
  .next s.unimplemented

/-- SGNAND decimal float: raises Unimplemented (42 R343). -/
def execSgnandDecimal (_ : Bool) (_ : R2) (s : State P) : Out P :=
  .next s.unimplemented

/-- SGNOR decimal float: raises Unimplemented (42 R343). -/
def execSgnorDecimal (_ : Bool) (_ : R2) (s : State P) : Out P :=
  .next s.unimplemented

/-- SGNXOR decimal float: raises Unimplemented (42 R343). -/
def execSgnxorDecimal (_ : Bool) (_ : R2) (s : State P) : Out P :=
  .next s.unimplemented

/-- SGNXNOR decimal float: raises Unimplemented (42 R343). -/
def execSgnxnorDecimal (_ : Bool) (_ : R2) (s : State P) : Out P :=
  .next s.unimplemented

/-- FCLASS decimal float: raises Unimplemented (42 R343). -/
def execFclassDecimal (_ : Bool) (_ : R2) (s : State P) : Out P :=
  .next s.unimplemented

/-- DF3 group: raises Unimplemented (42 R382). -/
def execDf3Group (_ : Bool) (s : State P) : Out P :=
  .next s.unimplemented

/-- DF4 group: raises Unimplemented (42 R382). -/
def execDf4Group (_ : Bool) (s : State P) : Out P :=
  .next s.unimplemented

/-- PST3 group: raises Unimplemented (42 R382). -/
def execPst3Group (_ : Bool) (s : State P) : Out P :=
  .next s.unimplemented

/-- PST4 group: raises Unimplemented (42 R382). -/
def execPst4Group (_ : Bool) (s : State P) : Out P :=
  .next s.unimplemented

end Sys2Proof.Machine
end

