-- ==== Sys2Proof/Machine/Float.lean ====
section
/-! DEFINITION. The binary floating-point instructions (42). -/

namespace Sys2Proof.Machine

variable {P : Config.Params}

/-- FMOV (42 R380). -/
def execFmov (v : Bool) (o : R1) (s : State P) : Out P :=
  opR1 v o (fun a => a) s

/-- FTOI (42 R380). -/
def execFtoi (v : Bool) (o : R1) (s : State P) : Out P :=
  opR1 v o (fpToInt s.rounding) s

/-- ITOF (42 R380). -/
def execItof (v : Bool) (o : R1) (s : State P) : Out P :=
  opR1 v o (fpOfInt s.rounding) s

/-- FSIGN (42 R380). -/
def execFsign (v : Bool) (o : R1) (s : State P) : Out P :=
  opR1 v o (fun a => fpCompare a 0#64) s

/-- ISNAN (42 R380). -/
def execIsnan (v : Bool) (o : R1) (s : State P) : Out P :=
  opR1 v o (fun a => Word.ofBool (fpIsNan a)) s

/-- FINITE (42 R380). -/
def execFinite (v : Bool) (o : R1) (s : State P) : Out P :=
  opR1 v o (fun a => Word.ofBool (fpIsFinite a)) s

/-- TRUNC (42 R380). -/
def execTrunc (v : Bool) (o : R1) (s : State P) : Out P :=
  opR1 v o fpTrunc s

/-- FSYNC: no operation (42 R380); its type codes agree with v (30 R130; log 17). -/
def execFsync (v : Bool) (o : R1) (s : State P) : Out P :=
  plain v s (if o.a.legal v && o.t.agrees v then s.finish else s.unimplemented)

/-- FSQRT (42 R350). -/
def execFsqrt (v : Bool) (rm : BitVec 3) (o : R1) (s : State P) : Out P :=
  opR1 v o (fpSqrt (s.sqrtRounding rm)) s

/-- FABS (42 R344). -/
def execFabs (v : Bool) (o : R1) (s : State P) : Out P :=
  opR1 v o signClear s

/-- FNABS (42 R346). -/
def execFnabs (v : Bool) (o : R1) (s : State P) : Out P :=
  opR1 v o signSet s

/-- FNEG (42 R348). -/
def execFneg (v : Bool) (o : R1) (s : State P) : Out P :=
  opR1 v o signFlip s

/-- FRSQRT: raises Unimplemented (42 R380). -/
def execFrsqrt (_ : Bool) (_ : R1) (s : State P) : Out P :=
  .next s.unimplemented

/-- FMAN: raises Unimplemented (42 R380). -/
def execFman (_ : Bool) (_ : R1) (s : State P) : Out P :=
  .next s.unimplemented

/-- FS2D: raises Unimplemented (42 R380). -/
def execFs2d (_ : Bool) (_ : R1) (s : State P) : Out P :=
  .next s.unimplemented

/-- FS2Q: raises Unimplemented (42 R380). -/
def execFs2q (_ : Bool) (_ : R1) (s : State P) : Out P :=
  .next s.unimplemented

/-- FD2Q: raises Unimplemented (42 R380). -/
def execFd2q (_ : Bool) (_ : R1) (s : State P) : Out P :=
  .next s.unimplemented

/-- FSTAT: raises Unimplemented (42 R380). -/
def execFstat (_ : Bool) (_ : R1) (s : State P) : Out P :=
  .next s.unimplemented

/-- FTX: raises Unimplemented (42 R380). -/
def execFtx (_ : Bool) (_ : R1) (s : State P) : Out P :=
  .next s.unimplemented

/-- FCX: raises Unimplemented (42 R380). -/
def execFcx (_ : Bool) (_ : R1) (s : State P) : Out P :=
  .next s.unimplemented

/-- FEX: raises Unimplemented (42 R380). -/
def execFex (_ : Bool) (_ : R1) (s : State P) : Out P :=
  .next s.unimplemented

/-- FDX: raises Unimplemented (42 R380). -/
def execFdx (_ : Bool) (_ : R1) (s : State P) : Out P :=
  .next s.unimplemented

/-- FRM: raises Unimplemented (42 R380). -/
def execFrm (_ : Bool) (_ : R1) (s : State P) : Out P :=
  .next s.unimplemented

/-- FRES: raises Unimplemented (42 R380). -/
def execFres (_ : Bool) (_ : R1) (s : State P) : Out P :=
  .next s.unimplemented

/-- FSIGMOID: raises Unimplemented (42 R380). -/
def execFsigmoid (_ : Bool) (_ : R1) (s : State P) : Out P :=
  .next s.unimplemented

/-- FD2S: raises Unimplemented (42 R380). -/
def execFd2s (_ : Bool) (_ : R1) (s : State P) : Out P :=
  .next s.unimplemented

/-- FQ2S: raises Unimplemented (42 R380). -/
def execFq2s (_ : Bool) (_ : R1) (s : State P) : Out P :=
  .next s.unimplemented

/-- FQ2D: raises Unimplemented (42 R380). -/
def execFq2d (_ : Bool) (_ : R1) (s : State P) : Out P :=
  .next s.unimplemented

/-- FCLASS: raises Unimplemented (42 R380). -/
def execFclass (_ : Bool) (_ : R1) (s : State P) : Out P :=
  .next s.unimplemented

/-- UNORD: raises Unimplemented (42 R380). -/
def execUnord (_ : Bool) (_ : R1) (s : State P) : Out P :=
  .next s.unimplemented

/-- FMIN (42 R358). -/
def execFmin (v : Bool) (o : R2) (s : State P) : Out P :=
  opR2 float6 v o fpMin s

/-- FMAX (42 R359). -/
def execFmax (v : Bool) (o : R2) (s : State P) : Out P :=
  opR2 float6 v o fpMax s

/-- FADD (42 R352). -/
def execFadd (v : Bool) (o : R2) (s : State P) : Out P :=
  opR2 float6 v o (fpAdd s.rounding) s

/-- FSUB (42 R354). -/
def execFsub (v : Bool) (o : R2) (s : State P) : Out P :=
  opR2 float6 v o (fpSub s.rounding) s

/-- FMUL (42 R356). -/
def execFmul (v : Bool) (o : R2) (s : State P) : Out P :=
  opR2 float6 v o (fpMul s.rounding) s

/-- FDIV (42 R357). -/
def execFdiv (v : Bool) (o : R2) (s : State P) : Out P :=
  opR2 float6 v o (fpDiv s.rounding) s

/-- FCMP (42 R361). -/
def execFcmp (v : Bool) (o : R2) (s : State P) : Out P :=
  opR2 float6 v o fpCompare s

/-- FSEQ (42 R365). -/
def execFseq (v : Bool) (o : R2) (s : State P) : Out P :=
  opR2 float6 v o (fun a b => Word.ofBool (fpEq a b)) s

/-- FSLT (42 R367). -/
def execFslt (v : Bool) (o : R2) (s : State P) : Out P :=
  opR2 float6 v o (fun a b => Word.ofBool (fpLt a b)) s

/-- FSLE (42 R368). -/
def execFsle (v : Bool) (o : R2) (s : State P) : Out P :=
  opR2 float6 v o (fun a b => Word.ofBool (fpLe a b)) s

/-- FSNE (42 R366). -/
def execFsne (v : Bool) (o : R2) (s : State P) : Out P :=
  opR2 float6 v o (fun a b => Word.ofBool (!fpEq a b)) s

/-- FCMPB (42 R363). -/
def execFcmpb (v : Bool) (o : R2) (s : State P) : Out P :=
  opR2 float6 v o fpCompareBits s

/-- CPYSGN (42 R381). -/
def execCpysgn (v : Bool) (o : R2) (s : State P) : Out P :=
  opR2 float6 v o copySign s

/-- SCALEB: raises Unimplemented (42 R381). -/
def execScaleb (_ : Bool) (_ : R2) (s : State P) : Out P :=
  .next s.unimplemented

/-- FREM: raises Unimplemented (42 R381). -/
def execFrem (_ : Bool) (_ : R2) (s : State P) : Out P :=
  .next s.unimplemented

/-- FNXT: raises Unimplemented (42 R381). -/
def execFnxt (_ : Bool) (_ : R2) (s : State P) : Out P :=
  .next s.unimplemented

/-- FSETM: raises Unimplemented (42 R381). -/
def execFsetm (_ : Bool) (_ : R2) (s : State P) : Out P :=
  .next s.unimplemented

/-- SGNINV: raises Unimplemented (42 R381). -/
def execSgninv (_ : Bool) (_ : R2) (s : State P) : Out P :=
  .next s.unimplemented

/-- SGNAND: raises Unimplemented (42 R381). -/
def execSgnand (_ : Bool) (_ : R2) (s : State P) : Out P :=
  .next s.unimplemented

/-- SGNOR: raises Unimplemented (42 R381). -/
def execSgnor (_ : Bool) (_ : R2) (s : State P) : Out P :=
  .next s.unimplemented

/-- SGNXOR: raises Unimplemented (42 R381). -/
def execSgnxor (_ : Bool) (_ : R2) (s : State P) : Out P :=
  .next s.unimplemented

/-- SGNXNOR: raises Unimplemented (42 R381). -/
def execSgnxnor (_ : Bool) (_ : R2) (s : State P) : Out P :=
  .next s.unimplemented

/-- FCLASS dyadic: raises Unimplemented (42 R381). -/
def execFclassDyadic (_ : Bool) (_ : R2) (s : State P) : Out P :=
  .next s.unimplemented

/-- F4 group: raises Unimplemented (42 R382). -/
def execF4Group (_ : Bool) (s : State P) : Out P :=
  .next s.unimplemented

/-- FMA (42 R373). -/
def execFma (v : Bool) (o : R2) (s : State P) : Out P :=
  opR3 float6 float6 v o (fpFma s.rounding) s

/-- FMS (42 R373). -/
def execFms (v : Bool) (o : R2) (s : State P) : Out P :=
  opR3 float6 float6 v o (fpFms s.rounding) s

/-- FNMA (42 R373). -/
def execFnma (v : Bool) (o : R2) (s : State P) : Out P :=
  opR3 float6 float6 v o (fpFnma s.rounding) s

/-- FNMS (42 R373). -/
def execFnms (v : Bool) (o : R2) (s : State P) : Out P :=
  opR3 float6 float6 v o (fpFnms s.rounding) s

/-- FDP (42 R372). -/
def execFdp (v : Bool) (o : R2) (s : State P) : Out P :=
  opR4 float6 float6 float6 v o (fpDot s.rounding) s

end Sys2Proof.Machine
end

