-- ==== Sys2Proof/Machine/Flow.lean ====
section
/-! DEFINITION. Branches and jumps (45). -/

namespace Sys2Proof.Machine

variable {P : Config.Params}

/-- The displacement of a branch under BRMOD: `{Constant15, Cnst4, disp16}` (45 R483). -/
def disp35 (m : BrmodOps) (d : BitVec 16) : Word := (m.hi ++ m.lo ++ d).signExtend 64

/-- The base of a branch under BRMOD: Rc, where x31 means the branch word's own address; a vector
register has none (45 R483). -/
def branchBase (m : BrmodOps) (s : State P) : Option Word :=
  match m.c with
  | .x r => some (if r = 31#5 then s.ip else s.readX r)
  | .imm c => some (sext6 c)
  | .v _ => none

/-- A conditional branch, alone (45 R482) or after a BRMOD word (45 R483). All sources are read before
the link register is written. A modifier with a vector register raises Unimplemented (30 R130; log 17). -/
def branch (ext : BitVec 6 → Word) (o : Branch) (cond : Word → Word → Bool) (s : State P) : Out P :=
  .next <|
    if o.b.legal false && s.modsLegal false then
      let taken := cond (s.readX o.ra) (o.b.value ext s P.first)
      match s.mods.brmod with
      | none => s.jump (if taken then s.ip + o.disp.signExtend 64 else s.nextIp)
      | some m =>
        match branchBase m s with
        | none => s.unimplemented
        | some base =>
          (s.writeX (linkReg m.rt) s.nextIp).jump (if taken then base + disp35 m o.disp else s.nextIp)
    else s.unimplemented

/-- BEQ (45 R485). -/
def execBeq (o : Branch) (s : State P) : Out P :=
  branch sext6 o (fun a b => a == b) s

/-- BNE (45 R486). -/
def execBne (o : Branch) (s : State P) : Out P :=
  branch sext6 o (fun a b => a != b) s

/-- BLT (45 R487). -/
def execBlt (o : Branch) (s : State P) : Out P :=
  branch sext6 o ltS s

/-- BGE (45 R488). -/
def execBge (o : Branch) (s : State P) : Out P :=
  branch sext6 o (fun a b => !ltS a b) s

/-- BLTU (45 R489). -/
def execBltu (o : Branch) (s : State P) : Out P :=
  branch zext6 o ltU s

/-- BGEU (45 R490). -/
def execBgeu (o : Branch) (s : State P) : Out P :=
  branch zext6 o (fun a b => !ltU a b) s

/-- BBS (45 R491). -/
def execBbs (o : Branch) (s : State P) : Out P :=
  branch zext6 o testBit s

/-- FBEQ (45 R493). -/
def execFbeq (o : Branch) (s : State P) : Out P :=
  branch float6 o fpEq s

/-- FBNE (45 R494). -/
def execFbne (o : Branch) (s : State P) : Out P :=
  branch float6 o (fun a b => !fpEq a b) s

/-- blank 43h: raises Unimplemented (45 R495). -/
def execBlank43h (s : State P) : Out P :=
  .next s.unimplemented

/-- blank 44h: raises Unimplemented (45 R495). -/
def execBlank44h (s : State P) : Out P :=
  .next s.unimplemented

/-- blank 45h: raises Unimplemented (45 R495). -/
def execBlank45h (s : State P) : Out P :=
  .next s.unimplemented

/-- blank 4Ch: raises Unimplemented (45 R495). -/
def execBlank4ch (s : State P) : Out P :=
  .next s.unimplemented

/-- BAL (45 R496). -/
def execBal (addr : BitVec 26) (rt : BitVec 2) (s : State P) : Out P :=
  plain false s ((s.writeX (linkReg rt) s.nextIp).jump (s.ip + addr.signExtend 64))

/-- JAL (45 R499). -/
def execJal (addr : BitVec 26) (rt : BitVec 2) (s : State P) : Out P :=
  plain false s ((s.writeX (linkReg rt) s.nextIp).jump (addr.setWidth 64))

/-- JALR (45 R501). -/
def execJalr (o : RI) (s : State P) : Out P :=
  plain false s <|
    match o.a, o.t with
    | .x ra, .x rt =>
      let base := if ra = 31#5 then s.ip else s.readX ra
      (s.writeX rt s.nextIp).jump (base + s.imm16 .signed o.imm)
    | _, _ => s.unimplemented

end Sys2Proof.Machine
end

