-- ==== Sys2Proof/Machine/Graphics.lean ====
section
/-! DEFINITION. The graphics instructions (43). -/

namespace Sys2Proof.Machine

variable {P : Config.Params}

/-- A co-ordinate of a point: x in bits 31:0, y in bits 63:32, 16.16 fixed point (43 R390). -/
def pointX (p : Word) : Int := (p.extractLsb' 0 32).toInt
def pointY (p : Word) : Int := (p.extractLsb' 32 32).toInt

/-- One colour component under an eight-bit alpha value (43 R392). -/
def blendByte (a b alpha : Byte) : Byte :=
  BitVec.ofNat 8 ((a.toNat * alpha.toNat + b.toNat * (~~~alpha).toNat) / 256)

/-- BLEND (43 R392). -/
def blendWord (a b c : Word) : Word :=
  let k (i : Nat) : Byte := blendByte (a.extractLsb' i 8) (b.extractLsb' i 8) (c.extractLsb' 0 8)
  a.extractLsb' 24 40 ++ k 16 ++ k 8 ++ k 0

/-- CLIP: 1 for a point outside the target or the enabled clip rectangle (43 R394). -/
def clipWord (g : Config.Gfx) (p : Word) : Word :=
  let px := pointX p / 65536
  let py := pointY p / 65536
  let inTarget := decide (0 ≤ px ∧ px < g.width ∧ 0 ≤ py ∧ py < g.height)
  let inClip := !g.clipEnable || decide ((g.x0 : Int) ≤ px ∧ px ≤ g.x1 ∧ (g.y0 : Int) ≤ py ∧ py ≤ g.y1)
  Word.ofBool !(inTarget && inClip)

/-- A coefficient as a signed 32-bit number (43 R397). -/
def coeffInt (cf : Vector Word 13) (k : Fin 13) : Int := (cf[k].extractLsb' 0 32).toInt

/-- TRANSFORM: the affine map of the first two matrix rows with z = 0, or the point itself while CMD
bit 0 is 0 (43 R397). -/
def transformWord (cf : Vector Word 13) (p : Word) : Word :=
  if (cf[12].extractLsb' 0 1) = 0#1 then p
  else
    let x := pointX p
    let y := pointY p
    let x' := (coeffInt cf 0 * x + coeffInt cf 1 * y) / 65536 + coeffInt cf 3
    let y' := (coeffInt cf 4 * x + coeffInt cf 5 * y) / 65536 + coeffInt cf 7
    BitVec.ofInt 32 y' ++ BitVec.ofInt 32 x'

/-- BLEND (43 R392). -/
def execBlend (v : Bool) (o : R2) (s : State P) : Out P :=
  opR3 sext6 sext6 v o blendWord s

/-- CLIP (43 R394). -/
def execClip (v : Bool) (o : R1) (s : State P) : Out P :=
  opR1 v o (clipWord P.gfx) s

/-- TRANSFORM (43 R397). -/
def execTransform (v : Bool) (o : R1) (s : State P) : Out P :=
  opR1 v o (transformWord s.coeff) s

/-- PLOT: one entry, or one for each active element in ascending order; no register is written (43 R396), but
the type code of the target agrees with v (30 R130; log 17). -/
def execPlot (v : Bool) (o : R2) (s : State P) : Out P :=
  plain v s <|
    if o.a.legal v && o.b.legal v && o.t.agrees v then
      let point (e : Fin P.vlmax) : Word × BitVec 32 := (o.a.value s e, (o.b.value sext6 s e).setWidth 32)
      let new := if v then ((List.finRange P.vlmax).filter (s.active s.imodMask.1)).map point else [point P.first]
      { s with plotLog := s.plotLog ++ new }.finish
    else s.unimplemented

/-- RW COEFF: an exchange (43 R399). -/
def execRwCoeff (o : R2) (s : State P) : Out P :=
  plain false s <|
    match o.a, o.t with
    | .x ra, .x rt =>
      if o.b.legal false then
        let n := (s.readX ra).toNat
        if h : n < 13 then
          ({ s with coeff := s.coeff.set n (Word.zextLow 32 (o.b.value sext6 s P.first)) }.writeX rt s.coeff[n]).finish
        else (s.writeX rt 0#64).finish
      else s.unimplemented
    | _, _ => s.unimplemented

end Sys2Proof.Machine
end

