-- ==== Sys2Proof/Machine/Index.lean ====
section
/-! DEFINITION. BYTNDX, WYDNDX and U21NDX (40 R214 to R216, 41 R301 to R304). -/

namespace Sys2Proof.Machine

variable {P : Config.Params}

/-- The index of the first matching field over all active elements of a vector: `n * e + k` for field k
of element e (40 R216, 41 R302, R304). -/
def searchVector {w : Nat} (n : Nat) (key : Fin P.vlmax → BitVec w) (r : BitVec 5) (s : State P) : Option Nat :=
  (List.finRange P.vlmax).findSome? fun e =>
    if s.active s.imodMask.1 e then (fieldIndex n (key e) (s.readV r)[e]).map (n * e.val + ·) else none

/-- A field search. A vector source with a scalar target searches the whole vector (40 R216); the
other forms are the general element-wise ones. -/
def opIndex {w : Nat} (n : Nat) (v : Bool) (a t : RSpec) (keyLegal : Bool) (key : Fin P.vlmax → BitVec w)
    (s : State P) : Out P :=
  match v, a, t with
  | true, .v ra, .x rt =>
    plain true s (if keyLegal then (s.writeX rt (indexWord (searchVector n key ra s))).finish else s.unimplemented)
  | _, _, _ =>
    elementwise v t (a.legal v && keyLegal) s.imodMask (fun e => indexWord (fieldIndex n (key e) (a.value s e))) s

/-- BYTNDX (40 R214). -/
def execBytndx (v : Bool) (o : R2) (s : State P) : Out P :=
  opIndex 8 v o.a o.t (o.b.legal v) (fun e => (o.b.value sext6 s e).setWidth 8) s

/-- WYDNDX (41 R304). -/
def execWydndx (v : Bool) (o : R2) (s : State P) : Out P :=
  opIndex 4 v o.a o.t (o.b.legal v) (fun e => (o.b.value sext6 s e).setWidth 16) s

/-- U21NDX (41 R302). -/
def execU21ndx (v : Bool) (o : R2) (s : State P) : Out P :=
  opIndex 3 v o.a o.t (o.b.legal v) (fun e => (o.b.value sext6 s e).setWidth 21) s

/-- BYTNDX immediate: the key is the low byte of the constant field, which no modifier changes (40 R215). -/
def execBytndxImmediate (v : Bool) (o : BytI) (s : State P) : Out P :=
  opIndex 8 v o.a o.t true (fun _ => o.imm.setWidth 8) s

/-- WYDNDX immediate (41 R303). -/
def execWydndxImmediate (v : Bool) (o : RI) (s : State P) : Out P :=
  opIndex 4 v o.a o.t true (fun _ => (s.imm16 .signed o.imm).setWidth 16) s

/-- U21NDX immediate (41 R301). -/
def execU21ndxImmediate (v : Bool) (o : RI) (s : State P) : Out P :=
  opIndex 3 v o.a o.t true (fun _ => (s.imm16 .signed o.imm).setWidth 21) s

end Sys2Proof.Machine
end

