-- ==== Sys2Proof/WellFormed.lean ====
section
/-! DEFINITION. Which terms of `Instr` have a word of their own. The operand types hold the widths of
every field, so only two compressed rows exclude values: those whose word another row claims. -/

namespace Sys2Proof

/-- 48 R673: with bits 12:8 = 0 the values 120, 121, 123 and 125 of bits 19:13 are RTI, PFI, WFI and
SYNC, so they are no causes of c.BRK; and bits 12:8 = 0 is never c.LDO FP. -/
def Instr.wellFormed : Instr → Bool
  | .cBrk cause => !(cause == 120#7 || cause == 121#7 || cause == 123#7 || cause == 125#7)
  | .cLdoFp _ r => !(r == 0#5)
  | _ => true

end Sys2Proof
end

