-- ==== Sys2Proof/Decode.lean ====
section
/-! DEFINITION. The decoder and the encoder of instruction words (30 R100 to R124, R131 to R140,
47 R600, 48 R670 to R707). `decode` reads one 36-bit word (a 20-bit word stands in its low 20 bits);
a word of no row of the opcode table is rejected by name. `Instr.encode` writes the word back with
every unused bit 0. -/

namespace Sys2Proof

/-- Why a word is no instruction: it lies in a blank cell of an opcode map (30 R140). -/
inductive Reject
  /-- The 8-bit opcode is blank in the root map (30 R131, R132). -/
  | blankOpcode (op : BitVec 8)
  /-- The function code is blank in the group's map (30 R133 to R138). -/
  | blankFunc (op : BitVec 8) (func : BitVec 7)
  /-- The Func4 (or stack count, or BYTNDX form) value is reserved (30 R140, 44 R413). -/
  | reservedFunc4 (op : BitVec 8) (func4 : BitVec 4)
  /-- A register field that the instruction does not use names a vector register (30 R130). -/
  | vectorField (op : BitVec 8) (func : BitVec 7)
  deriving DecidableEq, Repr

/-! ### Fields -/

/-- Bit `k` of a word. -/
def bit (w : BitVec 36) (k : Nat) : Bool := w.extractLsb' k 1 == 1#1

/-- The root opcode, bits 6:0 (30 R101). -/
def rootOf (w : BitVec 36) : BitVec 7 := w.extractLsb' 0 7

/-- The vector indicator, bit 7 (30 R101). -/
def vBit (w : BitVec 36) : Bool := bit w 7

/-- The 8-bit opcode (30 R101). -/
def opOf (w : BitVec 36) : BitVec 8 := w.extractLsb' 0 8

/-- func7, bits 35:29 (30 R108). -/
def funcOf (w : BitVec 36) : BitVec 7 := w.extractLsb' 29 7

/-- Func4, bits 35:32 (30 R113). -/
def func4Of (w : BitVec 36) : BitVec 4 := w.extractLsb' 32 4

/-- Six bits `{Ty, R5}` as a register specifier (30 R103). -/
def RSpec.dec (f : BitVec 6) : RSpec :=
  if f.extractLsb' 5 1 = 0#1 then .x (f.extractLsb' 0 5) else .v (f.extractLsb' 0 5)

/-- The six bits of a register specifier. -/
def RSpec.enc : RSpec → BitVec 6
  | .x r => 0#1 ++ r
  | .v r => 1#1 ++ r

/-- Seven bits `{Ty2, R5}` as an operand specifier (30 R103). -/
def OSpec.dec (f : BitVec 7) : OSpec :=
  if f.extractLsb' 6 1 = 1#1 then .imm (f.extractLsb' 0 6)
  else if f.extractLsb' 5 1 = 0#1 then .x (f.extractLsb' 0 5) else .v (f.extractLsb' 0 5)

/-- The seven bits of an operand specifier. -/
def OSpec.enc : OSpec → BitVec 7
  | .x r => 0#2 ++ r
  | .v r => 1#2 ++ r
  | .imm c => 1#1 ++ c

/-- Rt, bits 13:8 (30 R102). -/
def rT (w : BitVec 36) : RSpec := RSpec.dec (w.extractLsb' 8 6)

/-- Ra, bits 19:14 (30 R102). -/
def rA (w : BitVec 36) : RSpec := RSpec.dec (w.extractLsb' 14 6)

/-- Rb, bits 26:20 (30 R102). -/
def rB (w : BitVec 36) : OSpec := OSpec.dec (w.extractLsb' 20 7)

/-- Whether the Rt and the Rb position hold the type code of a vector register (30 R102, R103). -/
def tVector (w : BitVec 36) : Bool := bit w 13
def bVector (w : BitVec 36) : Bool := w.extractLsb' 25 2 == 1#2

/-! ### Formats: from a word to the operands and back -/

/-- R1 format (30 R109). -/
def R1.dec (w : BitVec 36) : R1 := ⟨w.extractLsb' 21 3, bit w 20, rA w, rT w⟩
def R1.enc (root func : BitVec 7) (v : Bool) (rm : BitVec 3) (o : R1) : BitVec 36 :=
  func ++ 0#2 ++ rm ++ o.m ++ BitVec.ofBool o.z ++ o.a.enc ++ o.t.enc ++ BitVec.ofBool v ++ root

/-- R2 format; `opt` is bits 28:27 (30 R108). -/
def R2.dec (w : BitVec 36) : R2 := ⟨rB w, rA w, rT w⟩
def R2.enc (root func : BitVec 7) (v : Bool) (opt : BitVec 2) (o : R2) : BitVec 36 :=
  func ++ opt ++ o.b.enc ++ o.a.enc ++ o.t.enc ++ BitVec.ofBool v ++ root

/-- R2 format with a six-bit constant in bits 25:20 (41 R313). -/
def R2I.dec (w : BitVec 36) : R2I := ⟨w.extractLsb' 20 6, rA w, rT w⟩
def R2I.enc (root func : BitVec 7) (v : Bool) (o : R2I) : BitVec 36 :=
  func ++ 0#3 ++ o.imm ++ o.a.enc ++ o.t.enc ++ BitVec.ofBool v ++ root

/-- RI format (30 R107). -/
def RI.dec (w : BitVec 36) : RI := ⟨w.extractLsb' 20 16, rA w, rT w⟩
def RI.enc (root : BitVec 7) (v : Bool) (o : RI) : BitVec 36 :=
  o.imm ++ o.a.enc ++ o.t.enc ++ BitVec.ofBool v ++ root

/-- CHK with a constant (45 R504). -/
def ChkI.dec (w : BitVec 36) : ChkI := ⟨w.extractLsb' 20 16, rA w, w.extractLsb' 8 2⟩
def ChkI.enc (root : BitVec 7) (v : Bool) (o : ChkI) : BitVec 36 :=
  o.imm ++ o.a.enc ++ 0#4 ++ o.cn ++ BitVec.ofBool v ++ root

/-- CHK with registers (45 R505). -/
def ChkR.dec (w : BitVec 36) : ChkR := ⟨rB w, rA w, w.extractLsb' 8 2⟩
def ChkR.enc (root func : BitVec 7) (v : Bool) (o : ChkR) : BitVec 36 :=
  func ++ 0#2 ++ o.b.enc ++ o.a.enc ++ 0#4 ++ o.cn ++ BitVec.ofBool v ++ root

/-- BYTNDX with a constant: bits 35:32 are 1 (40 R215). -/
def BytI.dec (w : BitVec 36) : BytI := ⟨w.extractLsb' 20 12, rA w, rT w⟩
def BytI.enc (root : BitVec 7) (v : Bool) (o : BytI) : BitVec 36 :=
  1#4 ++ o.imm ++ o.a.enc ++ o.t.enc ++ BitVec.ofBool v ++ root

/-- CSR format: the operation is `{bit 19, bit 13}` (30 R116). -/
def Csr.dec (w : BitVec 36) : Csr := ⟨w.extractLsb' 20 16, w.extractLsb' 14 5, w.extractLsb' 8 5⟩
def csrOp (w : BitVec 36) : BitVec 2 := w.extractLsb' 19 1 ++ w.extractLsb' 13 1
def Csr.enc (op : BitVec 2) (o : Csr) : BitVec 36 :=
  o.regno ++ op.extractLsb' 1 1 ++ o.ra ++ op.extractLsb' 0 1 ++ o.rt ++ 0#1 ++ 0x0f#7

/-- UNLINK (30 R118). -/
def Two.dec (w : BitVec 36) : Two := ⟨rA w, rT w⟩
def Two.enc (root : BitVec 7) (v : Bool) (o : Two) : BitVec 36 :=
  0#16 ++ o.a.enc ++ o.t.enc ++ BitVec.ofBool v ++ root

/-- Branch format: `disp16 = {Const9, C, Const6}` (30 R111). -/
def Branch.dec (w : BitVec 36) : Branch :=
  ⟨rB w, w.extractLsb' 14 5, w.extractLsb' 27 9 ++ w.extractLsb' 19 1 ++ w.extractLsb' 8 6⟩
def Branch.enc (root : BitVec 7) (o : Branch) : BitVec 36 :=
  o.disp.extractLsb' 7 9 ++ o.b.enc ++ o.disp.extractLsb' 6 1 ++ o.ra ++ o.disp.extractLsb' 0 6 ++
    0#1 ++ root

/-- IMOD: Rc's type code is `{bit 27, bit 19}` (30 R120). -/
def ImodOps.dec (w : BitVec 36) : ImodOps :=
  ⟨w.extractLsb' 28 3, OSpec.dec (w.extractLsb' 27 1 ++ w.extractLsb' 14 6), rB w,
    w.extractLsb' 12 2, w.extractLsb' 9 3, bit w 8⟩
def ImodOps.enc (v : Bool) (o : ImodOps) : BitVec 36 :=
  0#5 ++ o.rm ++ o.c.enc.extractLsb' 6 1 ++ o.d.enc ++ o.c.enc.extractLsb' 0 6 ++ o.a ++ o.m ++
    BitVec.ofBool o.z ++ BitVec.ofBool v ++ 0x58#7

/-- BRMOD (30 R121). -/
def BrmodOps.dec (w : BitVec 36) : BrmodOps :=
  ⟨w.extractLsb' 21 15, OSpec.dec (w.extractLsb' 14 7), w.extractLsb' 10 4, w.extractLsb' 8 2⟩
def BrmodOps.enc (o : BrmodOps) : BitVec 36 := o.hi ++ o.c.enc ++ o.lo ++ o.rt ++ 0#1 ++ 0x5a#7

/-- STRIDE (30 R122). -/
def StrideOps.dec (w : BitVec 36) : StrideOps :=
  ⟨w.extractLsb' 21 15, OSpec.dec (w.extractLsb' 14 7), w.extractLsb' 12 2, w.extractLsb' 9 3, bit w 8⟩
def StrideOps.enc (v : Bool) (o : StrideOps) : BitVec 36 :=
  o.hi ++ o.c.enc ++ o.a ++ o.m ++ BitVec.ofBool o.z ++ BitVec.ofBool v ++ 0x5b#7

/-- Load displacement format (30 R113). -/
def LdD.dec (w : BitVec 36) : LdD := ⟨w.extractLsb' 20 12, rA w, rT w⟩
def LdD.enc (root : BitVec 7) (v : Bool) (f : BitVec 4) (o : LdD) : BitVec 36 :=
  f ++ o.disp ++ o.a.enc ++ o.t.enc ++ BitVec.ofBool v ++ root

/-- Load indexed format (30 R113). -/
def LdX.dec (w : BitVec 36) : LdX := ⟨w.extractLsb' 27 3, rB w, rA w, rT w⟩
def LdX.enc (root : BitVec 7) (f : BitVec 4) (o : LdX) : BitVec 36 :=
  f ++ 0#2 ++ o.sc ++ o.b.enc ++ o.a.enc ++ o.t.enc ++ 0#1 ++ root

/-- Store displacement format: the displacement is `{C5, Const6}` (30 R114). -/
def StD.dec (w : BitVec 36) : StD := ⟨w.extractLsb' 27 5 ++ w.extractLsb' 8 6, rB w, rA w⟩
def StD.enc (root : BitVec 7) (v : Bool) (f : BitVec 4) (o : StD) : BitVec 36 :=
  f ++ o.disp.extractLsb' 6 5 ++ o.b.enc ++ o.a.enc ++ o.disp.extractLsb' 0 6 ++ BitVec.ofBool v ++ root

/-- Store indexed format (30 R114). -/
def StX.dec (w : BitVec 36) : StX := ⟨w.extractLsb' 27 3, rB w, rA w⟩
def StX.enc (root : BitVec 7) (f : BitVec 4) (o : StX) : BitVec 36 :=
  f ++ 0#2 ++ o.sc ++ o.b.enc ++ o.a.enc ++ 0#6 ++ 0#1 ++ root

/-- CACHE format (30 R115). Bit 13, which R115 prints as 0 and which is Tt in the load format, is ignored: no rule
says what a 1 there does (DEDUCED, log 15). -/
def CacheOps.dec (w : BitVec 36) : CacheOps :=
  ⟨w.extractLsb' 20 12, rA w, w.extractLsb' 10 3, w.extractLsb' 8 2⟩
def CacheOps.enc (o : CacheOps) : BitVec 36 :=
  0xf#4 ++ o.disp ++ o.a.enc ++ 0#1 ++ o.dc ++ o.ic ++ 0#1 ++ 0x60#7

/-- Three-mask layout (47 R600). -/
def MaskRRR.dec (w : BitVec 36) : MaskRRR :=
  ⟨w.extractLsb' 22 3, w.extractLsb' 15 3, w.extractLsb' 8 3⟩
def MaskRRR.enc (func : BitVec 7) (o : MaskRRR) : BitVec 36 :=
  func ++ 0#4 ++ o.b ++ 0#4 ++ o.a ++ 0#4 ++ o.t ++ 0#1 ++ 0x3e#7

/-- Mask-shift layout (47 R600). -/
def MaskShift.dec (w : BitVec 36) : MaskShift := ⟨rB w, w.extractLsb' 14 3, w.extractLsb' 8 3⟩
def MaskShift.enc (func : BitVec 7) (o : MaskShift) : BitVec 36 :=
  func ++ 0#2 ++ o.b.enc ++ 0#3 ++ o.a ++ 0#3 ++ o.t ++ 0#1 ++ 0x3e#7

/-- Scalar-to-mask layout (47 R600). -/
def ToMask.dec (w : BitVec 36) : ToMask := ⟨rA w, w.extractLsb' 8 3⟩
def ToMask.enc (func : BitVec 7) (o : ToMask) : BitVec 36 :=
  func ++ 0#9 ++ o.a.enc ++ 0#3 ++ o.t ++ 0#1 ++ 0x3e#7

/-- Mask-to-scalar layout (47 R600). -/
def FromMask.dec (w : BitVec 36) : FromMask :=
  ⟨w.extractLsb' 15 3, w.extractLsb' 13 2, w.extractLsb' 8 5⟩
def FromMask.enc (func : BitVec 7) (o : FromMask) : BitVec 36 :=
  func ++ 0#11 ++ o.m ++ o.tt ++ o.rt ++ 0#1 ++ 0x3e#7

/-- MTVL and MFVL, the {VM} forms that name no mask register (47 R600, R618, R619). -/
def mtvlWord (a : RSpec) : BitVec 36 := 0x12#7 ++ 0#9 ++ a.enc ++ 0#6 ++ 0#1 ++ 0x3e#7
def mfvlWord (tt : BitVec 2) (rt : BitVec 5) : BitVec 36 := 0x13#7 ++ 0#14 ++ tt ++ rt ++ 0#1 ++ 0x3e#7

/-- A word of which only the 8-bit opcode counts (30 R139, R141). -/
def wordV (root : BitVec 7) (v : Bool) : BitVec 36 := 0#28 ++ BitVec.ofBool v ++ root

/-- BRK (30 R117). -/
def brkWord (cause : BitVec 8) : BitVec 36 := 0#14 ++ cause ++ 0#6 ++ 0#8

/-- The words of root 07h, by the fields they use (30 R117, 46 R555). -/
def sysWord (func : BitVec 7) : BitVec 36 := func ++ 0#21 ++ 0#1 ++ 0x07#7
def sysA (func : BitVec 7) (a : RSpec) : BitVec 36 := func ++ 0#9 ++ a.enc ++ 0#6 ++ 0#1 ++ 0x07#7
def sysT (func : BitVec 7) (t : RSpec) : BitVec 36 := func ++ 0#15 ++ t.enc ++ 0#1 ++ 0x07#7
def sysBA (func : BitVec 7) (b : OSpec) (a : RSpec) : BitVec 36 :=
  func ++ 0#2 ++ b.enc ++ a.enc ++ 0#6 ++ 0#1 ++ 0x07#7
def sysAT (func : BitVec 7) (a t : RSpec) : BitVec 36 := func ++ 0#9 ++ a.enc ++ t.enc ++ 0#1 ++ 0x07#7
/-- PUSHQI: bit 26 is 1, the type code of a constant (46 R557). -/
def sysQA (func : BitVec 7) (q : BitVec 6) (a : RSpec) : BitVec 36 :=
  func ++ 0#2 ++ 1#1 ++ q ++ a.enc ++ 0#6 ++ 0#1 ++ 0x07#7
def sysQT (func : BitVec 7) (q : BitVec 6) (t : RSpec) : BitVec 36 :=
  func ++ 0#9 ++ q ++ t.enc ++ 0#1 ++ 0x07#7
def rexWord (tm : BitVec 2) : BitVec 36 := 0x10#7 ++ tm ++ 0#19 ++ 0#1 ++ 0x07#7
def rteWord (b : OSpec) (offset : BitVec 12) : BitVec 36 :=
  0x13#7 ++ 0#2 ++ b.enc ++ offset ++ 0#1 ++ 0x07#7

/-- JAL and BAL (30 R112). -/
def jalWord (root : BitVec 7) (addr : BitVec 26) (rt : BitVec 2) : BitVec 36 := addr ++ rt ++ 0#1 ++ root

/-- EXI0 to EXI4: a 28-bit payload (30 R124). -/
def exiWord (root : BitVec 7) (payload : BitVec 28) : BitVec 36 := payload ++ 0#1 ++ root

/-- REGLIST: `List[30:3]` in bits 35:8 and `List[2:1]` in bits 1:0; bit `n - 1` of `list` is `List[n]`
(30 R123). -/
def reglistWord (list : BitVec 30) : BitVec 36 :=
  list.extractLsb' 2 28 ++ 0x17#6 ++ list.extractLsb' 0 2

/-- A 20-bit word: twelve field bits over the 8-bit opcode (48 R671). -/
def word20 (fields : BitVec 12) (op : BitVec 8) : BitVec 36 := 0#16 ++ fields ++ op

/-! ### The decoder

It is `noncomputable` for one reason only: Lean's code generator cannot build an object of a
constructor past the 245th. The kernel evaluates every definition below. -/

noncomputable section

/-- A row that exists on the scalar page only (30 R131); its vector page cell is blank. -/
def scalarOnly (v : Bool) (w : BitVec 36) (r : Except Reject Instr) : Except Reject Instr :=
  if v then .error (.blankOpcode (opOf w)) else r

/-- A row that exists on the vector page only (30 R132). -/
def vectorOnly (v : Bool) (w : BitVec 36) (r : Except Reject Instr) : Except Reject Instr :=
  if v then r else .error (.blankOpcode (opOf w))

/-- R1, root 01h (30 R133): the rows by func7. -/
def decodeR1 (func : Nat) (v : Bool) (w : BitVec 36) : Except Reject Instr :=
  match func with
  | 0x00 => .ok (.cntlz (vBit w) (R1.dec w))
  | 0x01 => .ok (.cntlo (vBit w) (R1.dec w))
  | 0x02 => .ok (.cntpop (vBit w) (R1.dec w))
  | 0x03 => .ok (.com (vBit w) (R1.dec w))
  | 0x04 => .ok (.not (vBit w) (R1.dec w))
  | 0x05 => .ok (.neg (vBit w) (R1.dec w))
  | 0x06 => .ok (.abs (vBit w) (R1.dec w))
  | 0x07 => .ok (.nabs (vBit w) (R1.dec w))
  | 0x08 => .ok (.sqrt (vBit w) (R1.dec w))
  | 0x0b => .ok (.tst (vBit w) (R1.dec w))
  | 0x0c => .ok (.zxb (vBit w) (R1.dec w))
  | 0x0d => .ok (.zxw (vBit w) (R1.dec w))
  | 0x0e => .ok (.zxt (vBit w) (R1.dec w))
  | 0x10 => .ok (.ptrinc (vBit w) (R1.dec w))
  | 0x11 => .ok (.transform (vBit w) (R1.dec w))
  | 0x14 => .ok (.sxb (vBit w) (R1.dec w))
  | 0x15 => .ok (.sxw (vBit w) (R1.dec w))
  | 0x16 => .ok (.sxt (vBit w) (R1.dec w))
  | 0x18 => if v then .ok (.v2bits (R1.dec w)) else .error (.blankFunc (opOf w) (funcOf w))
  | 0x19 => if v then .ok (.bits2v (R1.dec w)) else .error (.blankFunc (opOf w) (funcOf w))
  | 0x1c => if v then .ok (.vcmprss (R1.dec w)) else .error (.blankFunc (opOf w) (funcOf w))
  | 0x1d => if v then .ok (.vcidx (R1.dec w)) else .error (.blankFunc (opOf w) (funcOf w))
  | 0x1e => if v then .ok (.vscan (R1.dec w)) else .error (.blankFunc (opOf w) (funcOf w))
  | 0x20 => .ok (.clip (vBit w) (R1.dec w))
  | _ => .error (.blankFunc (opOf w) (funcOf w))

/-- R2, root 02h (30 R134): the rows by func7. -/
def decodeR2 (func : Nat) (v : Bool) (w : BitVec 36) : Except Reject Instr :=
  match func with
  | 0x00 => .ok (.and (vBit w) (R2.dec w))
  | 0x01 => .ok (.or (vBit w) (R2.dec w))
  | 0x02 => .ok (.xor (vBit w) (R2.dec w))
  | 0x04 => .ok (.add (vBit w) (R2.dec w))
  | 0x05 => .ok (.sub (vBit w) (R2.dec w))
  | 0x06 => .ok (.mul (vBit w) (w.extractLsb' 27 2) (R2.dec w))
  | 0x08 => .ok (.nand (vBit w) (R2.dec w))
  | 0x09 => .ok (.nor (vBit w) (R2.dec w))
  | 0x0a => .ok (.xnor (vBit w) (R2.dec w))
  | 0x0d => .ok (.mulfDuplicate (vBit w) (R2.dec w))
  | 0x0e => .ok (.mulu (vBit w) (R2.dec w))
  | 0x0f => .ok (.mulh (vBit w) (R2.dec w))
  | 0x10 => .ok (.div (vBit w) (w.extractLsb' 27 2) (R2.dec w))
  | 0x11 => .ok (.divu (vBit w) (R2.dec w))
  | 0x12 => .ok (.divsu (vBit w) (w.extractLsb' 27 2) (R2.dec w))
  | 0x13 => .ok (.rem (vBit w) (R2.dec w))
  | 0x14 => .ok (.remu (vBit w) (R2.dec w))
  | 0x15 => .ok (.remsu (vBit w) (R2.dec w))
  | 0x16 => .ok (.mulsu (vBit w) (R2.dec w))
  | 0x17 => .ok (.perm (vBit w) (R2.dec w))
  | 0x18 => .ok (.dif (vBit w) (R2.dec w))
  | 0x1b => .ok (.wydndx (vBit w) (R2.dec w))
  | 0x1c => .ok (.mulf (vBit w) (R2.dec w))
  | 0x1d => .ok (.mulsuh (vBit w) (R2.dec w))
  | 0x1e => .ok (.muluh (vBit w) (R2.dec w))
  | 0x1f => if v then .error (.blankFunc (opOf w) (funcOf w)) else .ok (.myst (R2.dec w))
  | 0x20 => .ok (.cmp (vBit w) (R2.dec w))
  | 0x23 => .ok (.u21ndx (vBit w) (R2.dec w))
  | 0x26 => .ok (.seq (vBit w) (R2.dec w))
  | 0x27 => .ok (.sne (vBit w) (R2.dec w))
  | 0x28 => .ok (.min (vBit w) (R2.dec w))
  | 0x29 => .ok (.max (vBit w) (R2.dec w))
  | 0x2c => .ok (.slt (vBit w) (R2.dec w))
  | 0x2d => .ok (.sge (vBit w) (R2.dec w))
  | 0x2e => .ok (.sltu (vBit w) (R2.dec w))
  | 0x2f => .ok (.sgeu (vBit w) (R2.dec w))
  | 0x30 => .ok (.mor (vBit w) (R2.dec w))
  | 0x31 => .ok (.mxor (vBit w) (R2.dec w))
  | 0x32 => .ok (.mort (vBit w) (R2.dec w))
  | 0x33 => .ok (.mxort (vBit w) (R2.dec w))
  | 0x34 => .ok (.plot (vBit w) (R2.dec w))
  | 0x38 => if v then .ok (.vsllv (R2.dec w)) else .error (.blankFunc (opOf w) (funcOf w))
  | 0x39 => if v then .ok (.vsrlv (R2.dec w)) else .error (.blankFunc (opOf w) (funcOf w))
  | 0x3a => if v then .ok (.vex (R2.dec w)) else .error (.blankFunc (opOf w) (funcOf w))
  | 0x3b => if v then .ok (.veins (R2.dec w)) else .error (.blankFunc (opOf w) (funcOf w))
  | 0x3e => if v then .error (.blankFunc (opOf w) (funcOf w)) else .ok (.rwCoeff (R2.dec w))
  | 0x40 => .ok (.sll (vBit w) (R2.dec w))
  | 0x41 => .ok (.srl (vBit w) (R2.dec w))
  | 0x42 => .ok (.sra (vBit w) (R2.dec w))
  | 0x43 => .ok (.rol (vBit w) (R2.dec w))
  | 0x44 => .ok (.ror (vBit w) (R2.dec w))
  | 0x48 => .ok (.slli (vBit w) (R2I.dec w))
  | 0x49 => .ok (.srli (vBit w) (R2I.dec w))
  | 0x4a => .ok (.srai (vBit w) (R2I.dec w))
  | 0x4b => .ok (.roli (vBit w) (R2I.dec w))
  | 0x4c => .ok (.rori (vBit w) (R2I.dec w))
  | _ => .error (.blankFunc (opOf w) (funcOf w))

/-- R3/R4, root 03h (30 R135): the rows by func7. -/
def decodeR3 (func : Nat) (w : BitVec 36) : Except Reject Instr :=
  match func with
  | 0x04 => .ok (.mux (vBit w) (R2.dec w))
  | 0x10 => .ok (.sllp (vBit w) (R2.dec w))
  | 0x11 => .ok (.sllpi (vBit w) (R2I.dec w))
  | 0x18 => .ok (.ptrdif (vBit w) (R2.dec w))
  | 0x22 => .ok (.chkR3Form (vBit w) (ChkR.dec w))
  | 0x30 => .ok (.blend (vBit w) (R2.dec w))
  | 0x37 => .ok (.fdp (vBit w) (R2.dec w))
  | _ => .error (.blankFunc (opOf w) (funcOf w))

/-- A scalar word in which a field that the instruction does not use may name no vector register (30 R130). -/
def withoutVector (vector : Bool) (w : BitVec 36) (r : Except Reject Instr) : Except Reject Instr :=
  if vector then .error (.vectorField (opOf w) (funcOf w)) else r

/-- SYS, root 07h (30 R138): the rows by func7. The type code of a register field that a queue instruction
has no operand for (Rt of PUSHQ and PUSHQI, Rb of POPQ, PEEKQ, STATQ and their constant forms) is that of no
vector register (30 R130; DEDUCED, log 17). DESIGN CHOICE (log 32): bit 26 of PUSHQI, which is 1 in the
examples of 46 R557, is ignored. -/
def decodeSys (func : Nat) (v : Bool) (w : BitVec 36) : Except Reject Instr :=
  match func with
  | 0x00 => if v then .error (.blankFunc (opOf w) (funcOf w)) else .ok .llal
  | 0x01 => if v then .error (.blankFunc (opOf w) (funcOf w)) else .ok .llah
  | 0x04 => if v then .error (.blankFunc (opOf w) (funcOf w)) else .ok .lpal
  | 0x05 => if v then .error (.blankFunc (opOf w) (funcOf w)) else .ok .lpah
  | 0x07 => if v then .error (.blankFunc (opOf w) (funcOf w)) else .ok (.exec (rA w))
  | 0x08 => if v then .error (.blankFunc (opOf w) (funcOf w)) else
      withoutVector (tVector w) w (.ok (.pushq (rB w) (rA w)))
  | 0x09 => if v then .error (.blankFunc (opOf w) (funcOf w)) else
      withoutVector (bVector w) w (.ok (.popq (rA w) (rT w)))
  | 0x0a => if v then .error (.blankFunc (opOf w) (funcOf w)) else
      withoutVector (bVector w) w (.ok (.peekq (rA w) (rT w)))
  | 0x0b => if v then .error (.blankFunc (opOf w) (funcOf w)) else
      withoutVector (bVector w) w (.ok (.statq (rA w) (rT w)))
  | 0x0c => if v then .error (.blankFunc (opOf w) (funcOf w)) else
      withoutVector (tVector w) w (.ok (.pushqi (w.extractLsb' 20 6) (rA w)))
  | 0x0d => if v then .error (.blankFunc (opOf w) (funcOf w)) else
      withoutVector (bVector w) w (.ok (.popqi (w.extractLsb' 14 6) (rT w)))
  | 0x0e => if v then .error (.blankFunc (opOf w) (funcOf w)) else
      withoutVector (bVector w) w (.ok (.peekqi (w.extractLsb' 14 6) (rT w)))
  | 0x0f => if v then .error (.blankFunc (opOf w) (funcOf w)) else
      withoutVector (bVector w) w (.ok (.statqi (w.extractLsb' 14 6) (rT w)))
  | 0x10 => if v then .error (.blankFunc (opOf w) (funcOf w)) else .ok (.rex (w.extractLsb' 27 2))
  | 0x11 => if v then .error (.blankFunc (opOf w) (funcOf w)) else .ok (.pfi (rT w))
  | 0x12 => if v then .error (.blankFunc (opOf w) (funcOf w)) else .ok .wfi
  | 0x13 => if v then .error (.blankFunc (opOf w) (funcOf w)) else .ok (.rte (rB w) (w.extractLsb' 8 12))
  | 0x14 => if v then .error (.blankFunc (opOf w) (funcOf w)) else .ok .setkey
  | 0x18 => if v then .error (.blankFunc (opOf w) (funcOf w)) else .ok .setto
  | 0x19 => if v then .error (.blankFunc (opOf w) (funcOf w)) else .ok .getto
  | 0x1a => if v then .error (.blankFunc (opOf w) (funcOf w)) else .ok .getzl
  | 0x1d => if v then .error (.blankFunc (opOf w) (funcOf w)) else .ok .mvseg
  | 0x1e => if v then .error (.blankFunc (opOf w) (funcOf w)) else .ok (.tlbrw (R2.dec w))
  | 0x1f => if v then .error (.blankFunc (opOf w) (funcOf w)) else .ok .sync
  | 0x20 => if v then .error (.blankFunc (opOf w) (funcOf w)) else .ok .csave
  | 0x21 => if v then .error (.blankFunc (opOf w) (funcOf w)) else .ok .crestore
  | _ => .error (.blankFunc (opOf w) (funcOf w))

/-- CSR, root 0Fh: the rows by the operation bits (30 R116). -/
def decodeCsr (op : Nat) (v : Bool) (w : BitVec 36) : Except Reject Instr :=
  if v then .error (.blankOpcode (opOf w))
  else match op with
  | 0 => .ok (.csrrd (Csr.dec w))
  | 1 => .ok (.csrrw (Csr.dec w))
  | 2 => .ok (.csrrs (Csr.dec w))
  | _ => .ok (.csrrc (Csr.dec w))

/-- Root 1Ah: the rows by bits 35:32. -/
def decodeBytndx (func4 : Nat) (w : BitVec 36) : Except Reject Instr :=
  match func4 with
  | 0x0 => .ok (.bytndx (vBit w) (R2.dec w))
  | 0x1 => .ok (.bytndxImmediate (vBit w) (BytI.dec w))
  | _ => .error (.reservedFunc4 (opOf w) (func4Of w))

/-- BTFLD, root 1Ch (30 R135): the rows by func7. -/
def decodeBtfld (func : Nat) (w : BitVec 36) : Except Reject Instr :=
  match func with
  | 0x03 => .ok (.dep (vBit w) (R2.dec w))
  | 0x04 => .ok (.ext (vBit w) (R2.dec w))
  | 0x05 => .ok (.extu (vBit w) (R2.dec w))
  | 0x06 => .ok (.ffo (vBit w) (R2.dec w))
  | _ => .error (.blankFunc (opOf w) (funcOf w))

/-- DF1, root 30h (30 R136): the rows by func7. -/
def decodeDf1 (func : Nat) (w : BitVec 36) : Except Reject Instr :=
  match func with
  | 0x08 => .ok (.dfsqrt (vBit w) (w.extractLsb' 24 3) (R1.dec w))
  | 0x20 => .ok (.dfabs (vBit w) (R1.dec w))
  | 0x21 => .ok (.dfnabs (vBit w) (R1.dec w))
  | 0x22 => .ok (.dfneg (vBit w) (R1.dec w))
  | _ => .error (.blankFunc (opOf w) (funcOf w))

/-- DF2, root 31h (30 R136): the rows by func7. -/
def decodeDf2 (func : Nat) (w : BitVec 36) : Except Reject Instr :=
  match func with
  | 0x00 => .ok (.scalebDecimal (vBit w) (R2.dec w))
  | 0x02 => .ok (.dfmin (vBit w) (R2.dec w))
  | 0x03 => .ok (.dfmax (vBit w) (R2.dec w))
  | 0x04 => .ok (.dfadd (vBit w) (R2.dec w))
  | 0x05 => .ok (.dfsub (vBit w) (R2.dec w))
  | 0x08 => .ok (.dfmul (vBit w) (R2.dec w))
  | 0x09 => .ok (.dfdiv (vBit w) (R2.dec w))
  | 0x0a => .ok (.dfrem (vBit w) (R2.dec w))
  | 0x0b => .ok (.dfnxt (vBit w) (R2.dec w))
  | 0x10 => .ok (.dfcmp (vBit w) (R2.dec w))
  | 0x11 => .ok (.dfseq (vBit w) (R2.dec w))
  | 0x12 => .ok (.dfslt (vBit w) (R2.dec w))
  | 0x13 => .ok (.dfsle (vBit w) (R2.dec w))
  | 0x14 => .ok (.dfsne (vBit w) (R2.dec w))
  | 0x15 => .ok (.dfcmpb (vBit w) (R2.dec w))
  | 0x16 => .ok (.dfsetm (vBit w) (R2.dec w))
  | 0x18 => .ok (.cpysgnDecimal (vBit w) (R2.dec w))
  | 0x19 => .ok (.sgninvDecimal (vBit w) (R2.dec w))
  | 0x1a => .ok (.sgnandDecimal (vBit w) (R2.dec w))
  | 0x1b => .ok (.sgnorDecimal (vBit w) (R2.dec w))
  | 0x1c => .ok (.sgnxorDecimal (vBit w) (R2.dec w))
  | 0x1d => .ok (.sgnxnorDecimal (vBit w) (R2.dec w))
  | 0x1e => .ok (.fclassDecimal (vBit w) (R2.dec w))
  | _ => .error (.blankFunc (opOf w) (funcOf w))

/-- F1, root 34h (30 R136): the rows by func7. -/
def decodeF1 (func : Nat) (w : BitVec 36) : Except Reject Instr :=
  match func with
  | 0x00 => .ok (.fmov (vBit w) (R1.dec w))
  | 0x01 => .ok (.frsqrt (vBit w) (R1.dec w))
  | 0x02 => .ok (.ftoi (vBit w) (R1.dec w))
  | 0x03 => .ok (.itof (vBit w) (R1.dec w))
  | 0x06 => .ok (.fsign (vBit w) (R1.dec w))
  | 0x07 => .ok (.fman (vBit w) (R1.dec w))
  | 0x08 => .ok (.fsqrt (vBit w) (w.extractLsb' 24 3) (R1.dec w))
  | 0x09 => .ok (.fs2d (vBit w) (R1.dec w))
  | 0x0a => .ok (.fs2q (vBit w) (R1.dec w))
  | 0x0b => .ok (.fd2q (vBit w) (R1.dec w))
  | 0x0c => .ok (.fstat (vBit w) (R1.dec w))
  | 0x0e => .ok (.isnan (vBit w) (R1.dec w))
  | 0x0f => .ok (.finite (vBit w) (R1.dec w))
  | 0x10 => .ok (.ftx (vBit w) (R1.dec w))
  | 0x11 => .ok (.fcx (vBit w) (R1.dec w))
  | 0x12 => .ok (.fex (vBit w) (R1.dec w))
  | 0x13 => .ok (.fdx (vBit w) (R1.dec w))
  | 0x14 => .ok (.frm (vBit w) (R1.dec w))
  | 0x15 => .ok (.trunc (vBit w) (R1.dec w))
  | 0x16 => .ok (.fsync (vBit w) (R1.dec w))
  | 0x17 => .ok (.fres (vBit w) (R1.dec w))
  | 0x18 => .ok (.fsigmoid (vBit w) (R1.dec w))
  | 0x19 => .ok (.fd2s (vBit w) (R1.dec w))
  | 0x1a => .ok (.fq2s (vBit w) (R1.dec w))
  | 0x1b => .ok (.fq2d (vBit w) (R1.dec w))
  | 0x1e => .ok (.fclass (vBit w) (R1.dec w))
  | 0x1f => .ok (.unord (vBit w) (R1.dec w))
  | 0x20 => .ok (.fabs (vBit w) (R1.dec w))
  | 0x21 => .ok (.fnabs (vBit w) (R1.dec w))
  | 0x22 => .ok (.fneg (vBit w) (R1.dec w))
  | _ => .error (.blankFunc (opOf w) (funcOf w))

/-- F2, root 35h (30 R136): the rows by func7. -/
def decodeF2 (func : Nat) (w : BitVec 36) : Except Reject Instr :=
  match func with
  | 0x00 => .ok (.scaleb (vBit w) (R2.dec w))
  | 0x02 => .ok (.fmin (vBit w) (R2.dec w))
  | 0x03 => .ok (.fmax (vBit w) (R2.dec w))
  | 0x04 => .ok (.fadd (vBit w) (R2.dec w))
  | 0x05 => .ok (.fsub (vBit w) (R2.dec w))
  | 0x08 => .ok (.fmul (vBit w) (R2.dec w))
  | 0x09 => .ok (.fdiv (vBit w) (R2.dec w))
  | 0x0a => .ok (.frem (vBit w) (R2.dec w))
  | 0x0b => .ok (.fnxt (vBit w) (R2.dec w))
  | 0x10 => .ok (.fcmp (vBit w) (R2.dec w))
  | 0x11 => .ok (.fseq (vBit w) (R2.dec w))
  | 0x12 => .ok (.fslt (vBit w) (R2.dec w))
  | 0x13 => .ok (.fsle (vBit w) (R2.dec w))
  | 0x14 => .ok (.fsne (vBit w) (R2.dec w))
  | 0x15 => .ok (.fcmpb (vBit w) (R2.dec w))
  | 0x16 => .ok (.fsetm (vBit w) (R2.dec w))
  | 0x18 => .ok (.cpysgn (vBit w) (R2.dec w))
  | 0x19 => .ok (.sgninv (vBit w) (R2.dec w))
  | 0x1a => .ok (.sgnand (vBit w) (R2.dec w))
  | 0x1b => .ok (.sgnor (vBit w) (R2.dec w))
  | 0x1c => .ok (.sgnxor (vBit w) (R2.dec w))
  | 0x1d => .ok (.sgnxnor (vBit w) (R2.dec w))
  | 0x1e => .ok (.fclassDyadic (vBit w) (R2.dec w))
  | _ => .error (.blankFunc (opOf w) (funcOf w))

/-- F3, root 36h (30 R136): the rows by func7. -/
def decodeF3 (func : Nat) (w : BitVec 36) : Except Reject Instr :=
  match func with
  | 0x00 => .ok (.fma (vBit w) (R2.dec w))
  | 0x01 => .ok (.fms (vBit w) (R2.dec w))
  | 0x02 => .ok (.fnma (vBit w) (R2.dec w))
  | 0x03 => .ok (.fnms (vBit w) (R2.dec w))
  | _ => .error (.blankFunc (opOf w) (funcOf w))

/-- PST1, root 38h (30 R136): the rows by func7. -/
def decodePst1 (func : Nat) (w : BitVec 36) : Except Reject Instr :=
  match func with
  | 0x08 => .ok (.psqrt (vBit w) (w.extractLsb' 24 3) (R1.dec w))
  | 0x20 => .ok (.pabs (vBit w) (R1.dec w))
  | 0x21 => .ok (.pnabs (vBit w) (R1.dec w))
  | 0x22 => .ok (.pneg (vBit w) (R1.dec w))
  | _ => .error (.blankFunc (opOf w) (funcOf w))

/-- PST2, root 39h (30 R136): the rows by func7. -/
def decodePst2 (func : Nat) (w : BitVec 36) : Except Reject Instr :=
  match func with
  | 0x04 => .ok (.padd (vBit w) (R2.dec w))
  | 0x05 => .ok (.psub (vBit w) (R2.dec w))
  | 0x08 => .ok (.pmul (vBit w) (R2.dec w))
  | 0x09 => .ok (.pdiv (vBit w) (R2.dec w))
  | 0x13 => .ok (.psle (vBit w) (R2.dec w))
  | _ => .error (.blankFunc (opOf w) (funcOf w))

/-- VM, root 3Eh (30 R137): the rows by func7. -/
def decodeVm (func : Nat) (v : Bool) (w : BitVec 36) : Except Reject Instr :=
  match func with
  | 0x00 => if v then .error (.blankFunc (opOf w) (funcOf w)) else .ok (.mand (MaskRRR.dec w))
  | 0x01 => if v then .error (.blankFunc (opOf w) (funcOf w)) else .ok (.morMask (MaskRRR.dec w))
  | 0x02 => if v then .error (.blankFunc (opOf w) (funcOf w)) else .ok (.mxorMask (MaskRRR.dec w))
  | 0x04 => if v then .error (.blankFunc (opOf w) (funcOf w)) else .ok (.madd (MaskRRR.dec w))
  | 0x05 => if v then .error (.blankFunc (opOf w) (funcOf w)) else .ok (.msub (MaskRRR.dec w))
  | 0x06 => if v then .error (.blankFunc (opOf w) (funcOf w)) else .ok (.msll (MaskShift.dec w))
  | 0x07 => if v then .error (.blankFunc (opOf w) (funcOf w)) else .ok (.msrl (MaskShift.dec w))
  | 0x08 => if v then .error (.blankFunc (opOf w) (funcOf w)) else .ok (.mnand (MaskRRR.dec w))
  | 0x09 => if v then .error (.blankFunc (opOf w) (funcOf w)) else .ok (.mnor (MaskRRR.dec w))
  | 0x0a => if v then .error (.blankFunc (opOf w) (funcOf w)) else .ok (.mxnor (MaskRRR.dec w))
  | 0x0c => if v then .error (.blankFunc (opOf w) (funcOf w)) else .ok (.mfill (ToMask.dec w))
  | 0x0d => if v then .error (.blankFunc (opOf w) (funcOf w)) else .ok (.mpop (FromMask.dec w))
  | 0x0e => if v then .error (.blankFunc (opOf w) (funcOf w)) else .ok (.mfirst (FromMask.dec w))
  | 0x0f => if v then .error (.blankFunc (opOf w) (funcOf w)) else .ok (.mlast (FromMask.dec w))
  | 0x10 => if v then .error (.blankFunc (opOf w) (funcOf w)) else .ok (.mtm (ToMask.dec w))
  | 0x11 => if v then .error (.blankFunc (opOf w) (funcOf w)) else .ok (.mfm (FromMask.dec w))
  | 0x12 => if v then .error (.blankFunc (opOf w) (funcOf w)) else .ok (.mtvl (rA w))
  | 0x13 => if v then .error (.blankFunc (opOf w) (funcOf w)) else
      .ok (.mfvl (w.extractLsb' 13 2) (w.extractLsb' 8 5))
  | _ => .error (.blankFunc (opOf w) (funcOf w))

/-- Root 60h: the rows by bits 35:32. -/
def decodeLoad60 (func4 : Nat) (w : BitVec 36) : Except Reject Instr :=
  match func4 with
  | 0x0 => .ok (.ldb (LdD.dec w))
  | 0x1 => .ok (.ldw (LdD.dec w))
  | 0x2 => .ok (.ldt (LdD.dec w))
  | 0x3 => .ok (.ldo (LdD.dec w))
  | 0x4 => .ok (.loadFunc4Is4At60h (LdD.dec w))
  | 0x5 => .ok (.loadFunc4Is5At60h (LdD.dec w))
  | 0x7 => .ok (.ldptrAt60h (LdD.dec w))
  | 0xd => .ok (.ldmAt60h (LdD.dec w))
  | 0xf => .ok (.cache (CacheOps.dec w))
  | _ => .error (.reservedFunc4 (opOf w) (func4Of w))

/-- Root 61h: the rows by bits 35:32. -/
def decodeLoad61 (func4 : Nat) (w : BitVec 36) : Except Reject Instr :=
  match func4 with
  | 0x0 => .ok (.ldbIndexed (LdX.dec w))
  | 0x1 => .ok (.ldwIndexed (LdX.dec w))
  | 0x2 => .ok (.ldtIndexed (LdX.dec w))
  | 0x3 => .ok (.ldoIndexed (LdX.dec w))
  | 0x4 => .ok (.loadFunc4Is4At61h (LdX.dec w))
  | 0x5 => .ok (.loadFunc4Is5At61h (LdX.dec w))
  | 0x7 => .ok (.ldptrAt61h (LdX.dec w))
  | 0xd => .ok (.ldmAt61h (LdX.dec w))
  | _ => .error (.reservedFunc4 (opOf w) (func4Of w))

/-- Root 64h: the rows by bits 35:32. -/
def decodeLoad64 (func4 : Nat) (w : BitVec 36) : Except Reject Instr :=
  match func4 with
  | 0x0 => .ok (.ldbz (LdD.dec w))
  | 0x1 => .ok (.ldwz (LdD.dec w))
  | 0x2 => .ok (.ldtz (LdD.dec w))
  | 0x3 => .ok (.ldoAt64h (LdD.dec w))
  | 0x4 => .ok (.loadFunc4Is4At64h (LdD.dec w))
  | 0x5 => .ok (.loadFunc4Is5At64h (LdD.dec w))
  | 0x7 => .ok (.ldptrAt64h (LdD.dec w))
  | 0xd => .ok (.loadFunc4Is13At64h (LdD.dec w))
  | _ => .error (.reservedFunc4 (opOf w) (func4Of w))

/-- Root 65h: the rows by bits 35:32. -/
def decodeLoad65 (func4 : Nat) (w : BitVec 36) : Except Reject Instr :=
  match func4 with
  | 0x0 => .ok (.ldbzIndexed (LdX.dec w))
  | 0x1 => .ok (.ldwzIndexed (LdX.dec w))
  | 0x2 => .ok (.ldtzIndexed (LdX.dec w))
  | 0x3 => .ok (.ldoIndexedAt65h (LdX.dec w))
  | 0x4 => .ok (.loadFunc4Is4At65h (LdX.dec w))
  | 0x5 => .ok (.loadFunc4Is5At65h (LdX.dec w))
  | 0x7 => .ok (.ldptrAt65h (LdX.dec w))
  | 0xd => .ok (.loadFunc4Is13At65h (LdX.dec w))
  | _ => .error (.reservedFunc4 (opOf w) (func4Of w))

/-- Root 67h: the rows by bits 35:32. -/
def decodePop (func4 : Nat) (w : BitVec 36) : Except Reject Instr :=
  match func4 with
  | 0x1 => .ok (.pop (R2.dec w))
  | 0x2 => .ok (.popPair (R2.dec w))
  | _ => .error (.reservedFunc4 (opOf w) (func4Of w))

/-- Root 68h: the rows by bits 35:32. -/
def decodeStore68 (func4 : Nat) (w : BitVec 36) : Except Reject Instr :=
  match func4 with
  | 0x0 => .ok (.stb (StD.dec w))
  | 0x1 => .ok (.stw (StD.dec w))
  | 0x2 => .ok (.stt (StD.dec w))
  | 0x3 => .ok (.sto (StD.dec w))
  | 0x7 => .ok (.stptr (StD.dec w))
  | 0xd => .ok (.stm (StD.dec w))
  | _ => .error (.reservedFunc4 (opOf w) (func4Of w))

/-- Root 69h: the rows by bits 35:32. -/
def decodeStore69 (func4 : Nat) (w : BitVec 36) : Except Reject Instr :=
  match func4 with
  | 0x0 => .ok (.stbIndexed (StX.dec w))
  | 0x1 => .ok (.stwIndexed (StX.dec w))
  | 0x2 => .ok (.sttIndexed (StX.dec w))
  | 0x3 => .ok (.stoIndexed (StX.dec w))
  | 0x7 => .ok (.stptrIndexed (StX.dec w))
  | 0xd => .ok (.stmIndexed (StX.dec w))
  | _ => .error (.reservedFunc4 (opOf w) (func4Of w))

/-- Root 6Fh: the rows by bits 35:32. -/
def decodePush (func4 : Nat) (w : BitVec 36) : Except Reject Instr :=
  match func4 with
  | 0x1 => .ok (.push (R2.dec w))
  | 0x2 => .ok (.pushPair (R2.dec w))
  | _ => .error (.reservedFunc4 (opOf w) (func4Of w))

/-- Opcode 70h: `k` is bits 19:13, `r` is bits 12:8 (48 R673). -/
def decode70 (k r : Nat) (w : BitVec 36) : Except Reject Instr :=
  match r with
  | 0 =>
    match k with
    | 120 => .ok .cRti
    | 121 => .ok .cPfi
    | 123 => .ok .cWfi
    | 125 => .ok .cSync
    | _ => .ok (.cBrk (w.extractLsb' 13 7))
  | _ => .ok (.cLdoFp (w.extractLsb' 13 7) (w.extractLsb' 8 5))

/-- Opcode 74h: `sel` is bits 19:18, `mid` is bits 12:10 (48 R683 to R686). -/
def decode74 (sel mid : Nat) (w : BitVec 36) : Except Reject Instr :=
  match sel with
  | 0 => match mid with
    | 0 => .ok (.cJmp (w.extractLsb' 13 5) (w.extractLsb' 8 2))
    | _ => .ok .c74hReserved
  | 1 => .ok (.cMov (w.extractLsb' 13 5) (w.extractLsb' 8 5))
  | 2 => .ok (.cAdd (w.extractLsb' 13 5) (w.extractLsb' 8 5))
  | _ => .ok (.cAnd (w.extractLsb' 13 5) (w.extractLsb' 8 5))

/-- Opcode 7Ch: `sel` is bits 19:16, `op` is bits 12:11 (48 R694 to R703). -/
def decode7c (sel op : Nat) (w : BitVec 36) : Except Reject Instr :=
  match sel / 4 with
  | 0 => .ok (.cSlli (w.extractLsb' 13 5) (w.extractLsb' 8 5))
  | 1 => .ok (.cSrli (w.extractLsb' 13 5) (w.extractLsb' 8 5))
  | 2 => .ok (.cSrai (w.extractLsb' 13 5) (w.extractLsb' 8 5))
  | _ =>
    match sel % 4, op with
    | 0, 0 => .ok (.cSub (w.extractLsb' 13 3) (w.extractLsb' 8 3))
    | 0, 1 => .ok (.cOr (w.extractLsb' 13 3) (w.extractLsb' 8 3))
    | 0, 2 => .ok (.cXor (w.extractLsb' 13 3) (w.extractLsb' 8 3))
    | 0, 3 => .ok (.cNand (w.extractLsb' 13 3) (w.extractLsb' 8 3))
    | 1, 0 => .ok (.cNor (w.extractLsb' 13 3) (w.extractLsb' 8 3))
    | _, _ => .ok .c7chUnlisted

/-- The compressed page, 8-bit opcodes 70h to 7Fh (48 R707). -/
def decode20 (root : Nat) (w : BitVec 36) : Except Reject Instr :=
  match root with
  | 0x70 => decode70 (w.extractLsb' 13 7).toNat (w.extractLsb' 8 5).toNat w
  | 0x71 => .ok (.cLdoSp (w.extractLsb' 13 7) (w.extractLsb' 8 5))
  | 0x72 => .ok (.cStoFp (w.extractLsb' 13 7) (w.extractLsb' 8 5))
  | 0x73 => .ok (.cStoSp (w.extractLsb' 13 7) (w.extractLsb' 8 5))
  | 0x74 => decode74 (w.extractLsb' 18 2).toNat (w.extractLsb' 10 3).toNat w
  | 0x75 => .ok (.cAddi (w.extractLsb' 13 7) (w.extractLsb' 8 5))
  | 0x76 => .ok (.cAndi (w.extractLsb' 13 7) (w.extractLsb' 8 5))
  | 0x77 => .ok (.cOri (w.extractLsb' 13 7) (w.extractLsb' 8 5))
  | 0x78 => .ok (.cBeqz (w.extractLsb' 13 7) (w.extractLsb' 8 5))
  | 0x79 => .ok (.cBnez (w.extractLsb' 13 7) (w.extractLsb' 8 5))
  | 0x7a => .ok (.cBal (w.extractLsb' 10 10) (w.extractLsb' 8 2))
  | 0x7b => .ok (.cLdi (w.extractLsb' 13 7) (w.extractLsb' 8 5))
  | 0x7c => decode7c (w.extractLsb' 16 4).toNat (w.extractLsb' 11 2).toNat w
  | 0x7d => .ok .c7dhReserved
  | 0x7e => .ok (.cLdmSp (w.extractLsb' 9 11) (bit w 8))
  | _ => .ok .c7fhNoRow

/-- The root opcode map, scalar page and vector page (30 R131, R132). DESIGN CHOICE (log 33): DAh, where the
vector map prints BRMOD, is reserved, because 30 R121 gives BRMOD bit 7 = 0. -/
def decodeRoot (root func func4 : Nat) (v : Bool) (w : BitVec 36) : Except Reject Instr :=
  match root with
  | 0x00 => scalarOnly v w (.ok (.brk (w.extractLsb' 14 8)))
  | 0x01 => decodeR1 func v w
  | 0x02 => decodeR2 func v w
  | 0x03 => decodeR3 func w
  | 0x04 => .ok (.addImmediate (vBit w) (RI.dec w))
  | 0x05 => .ok (.subfImmediate (vBit w) (RI.dec w))
  | 0x06 => .ok (.mulImmediate (vBit w) (RI.dec w))
  | 0x07 => decodeSys func v w
  | 0x08 => .ok (.andImmediate (vBit w) (RI.dec w))
  | 0x09 => .ok (.orImmediate (vBit w) (RI.dec w))
  | 0x0a => .ok (.xorImmediate (vBit w) (RI.dec w))
  | 0x0d => .ok (.setGroup (vBit w))
  | 0x0e => .ok (.muluImmediate (vBit w) (RI.dec w))
  | 0x0f => decodeCsr (csrOp w).toNat v w
  | 0x10 => .ok (.divImmediate (vBit w) (RI.dec w))
  | 0x11 => .ok (.divuImmediate (vBit w) (RI.dec w))
  | 0x12 => .ok (.divsuImmediate (vBit w) (RI.dec w))
  | 0x15 => .ok (.mulfImmediate (vBit w) (RI.dec w))
  | 0x16 => .ok (.mulsuImmediate (vBit w) (RI.dec w))
  | 0x17 => .ok (.permImmediate (vBit w) (RI.dec w))
  | 0x18 => .ok (.remImmediate (vBit w) (RI.dec w))
  | 0x19 => .ok (.remuImmediate (vBit w) (RI.dec w))
  | 0x1a => decodeBytndx func4 w
  | 0x1b => .ok (.wydndxImmediate (vBit w) (RI.dec w))
  | 0x1c => decodeBtfld func w
  | 0x1f => scalarOnly v w (.ok (.mystImmediate (RI.dec w)))
  | 0x20 => .ok (.remsuImmediate (vBit w) (RI.dec w))
  | 0x21 => .ok (.divrImmediate (vBit w) (RI.dec w))
  | 0x22 => .ok (.chkImmediate (vBit w) (ChkI.dec w))
  | 0x23 => .ok (.u21ndxImmediate (vBit w) (RI.dec w))
  | 0x24 => scalarOnly v w (.ok (.sand (RI.dec w)))
  | 0x25 => scalarOnly v w (.ok (.sor (RI.dec w)))
  | 0x26 => .ok (.seqImmediate (vBit w) (RI.dec w))
  | 0x27 => .ok (.sneImmediate (vBit w) (RI.dec w))
  | 0x28 => .ok (.sltImmediate (vBit w) (RI.dec w))
  | 0x29 => .ok (.sgtImmediate (vBit w) (RI.dec w))
  | 0x2a => .ok (.sltuImmediate (vBit w) (RI.dec w))
  | 0x2b => .ok (.sgtuImmediate (vBit w) (RI.dec w))
  | 0x30 => decodeDf1 func w
  | 0x31 => decodeDf2 func w
  | 0x32 => .ok (.df3Group (vBit w))
  | 0x33 => .ok (.df4Group (vBit w))
  | 0x34 => decodeF1 func w
  | 0x35 => decodeF2 func w
  | 0x36 => decodeF3 func w
  | 0x37 => .ok (.f4Group (vBit w))
  | 0x38 => decodePst1 func w
  | 0x39 => decodePst2 func w
  | 0x3a => .ok (.pst3Group (vBit w))
  | 0x3b => .ok (.pst4Group (vBit w))
  | 0x3c => scalarOnly v w (.ok (.link (RI.dec w)))
  | 0x3d => scalarOnly v w (.ok (.unlink (Two.dec w)))
  | 0x3e => decodeVm func v w
  | 0x3f => .ok (.nop (vBit w))
  | 0x40 => scalarOnly v w (.ok (.jal (w.extractLsb' 10 26) (w.extractLsb' 8 2)))
  | 0x41 => scalarOnly v w (.ok (.bal (w.extractLsb' 10 26) (w.extractLsb' 8 2)))
  | 0x42 => scalarOnly v w (.ok (.jalr (RI.dec w)))
  | 0x43 => scalarOnly v w (.ok .blank43h)
  | 0x44 => scalarOnly v w (.ok .blank44h)
  | 0x45 => scalarOnly v w (.ok .blank45h)
  | 0x46 => scalarOnly v w (.ok (.fbeq (Branch.dec w)))
  | 0x47 => scalarOnly v w (.ok (.fbne (Branch.dec w)))
  | 0x48 => scalarOnly v w (.ok (.blt (Branch.dec w)))
  | 0x49 => scalarOnly v w (.ok (.bge (Branch.dec w)))
  | 0x4a => scalarOnly v w (.ok (.bltu (Branch.dec w)))
  | 0x4b => scalarOnly v w (.ok (.bgeu (Branch.dec w)))
  | 0x4c => scalarOnly v w (.ok .blank4ch)
  | 0x4d => scalarOnly v w (.ok (.bbs (Branch.dec w)))
  | 0x4e => scalarOnly v w (.ok (.beq (Branch.dec w)))
  | 0x4f => scalarOnly v w (.ok (.bne (Branch.dec w)))
  | 0x50 => scalarOnly v w (.ok (.exi0 (w.extractLsb' 8 28)))
  | 0x51 => scalarOnly v w (.ok (.exi1 (w.extractLsb' 8 28)))
  | 0x52 => scalarOnly v w (.ok (.exi2 (w.extractLsb' 8 28)))
  | 0x53 => scalarOnly v w (.ok (.exi3 (w.extractLsb' 8 28)))
  | 0x54 => scalarOnly v w (.ok (.exi4 (w.extractLsb' 8 28)))
  | 0x58 => .ok (.imod (vBit w) (ImodOps.dec w))
  | 0x5a => scalarOnly v w (.ok (.brmod (BrmodOps.dec w)))
  | 0x5b => .ok (.stride (vBit w) (StrideOps.dec w))
  | 0x5c => scalarOnly v w (.ok (.reglist (w.extractLsb' 8 28 ++ w.extractLsb' 0 2)))
  | 0x5d => scalarOnly v w (.ok (.reglist (w.extractLsb' 8 28 ++ w.extractLsb' 0 2)))
  | 0x5e => scalarOnly v w (.ok (.reglist (w.extractLsb' 8 28 ++ w.extractLsb' 0 2)))
  | 0x5f => scalarOnly v w (.ok (.reglist (w.extractLsb' 8 28 ++ w.extractLsb' 0 2)))
  | 0x60 => scalarOnly v w (decodeLoad60 func4 w)
  | 0x61 => scalarOnly v w (decodeLoad61 func4 w)
  | 0x62 => vectorOnly v w (.ok (.ldsx (w.extractLsb' 32 4) (LdD.dec w)))
  | 0x63 => vectorOnly v w (.ok (.ldxvx (w.extractLsb' 32 4) (LdD.dec w)))
  | 0x64 => scalarOnly v w (decodeLoad64 func4 w)
  | 0x65 => scalarOnly v w (decodeLoad65 func4 w)
  | 0x66 => vectorOnly v w (.ok (.cvldsx (w.extractLsb' 32 4) (LdD.dec w)))
  | 0x67 => if v then .ok (.cvldxvx (w.extractLsb' 32 4) (LdD.dec w)) else decodePop func4 w
  | 0x68 => scalarOnly v w (decodeStore68 func4 w)
  | 0x69 => scalarOnly v w (decodeStore69 func4 w)
  | 0x6f => scalarOnly v w (decodePush func4 w)
  | 0x70 => scalarOnly v w (decode20 root w)
  | 0x71 => scalarOnly v w (decode20 root w)
  | 0x72 => if v then .ok (.stsx (w.extractLsb' 32 4) (StD.dec w)) else decode20 root w
  | 0x73 => if v then .ok (.stxvx (w.extractLsb' 32 4) (StD.dec w)) else decode20 root w
  | 0x74 => scalarOnly v w (decode20 root w)
  | 0x75 => scalarOnly v w (decode20 root w)
  | 0x76 => if v then .ok (.cvstsx (w.extractLsb' 32 4) (StD.dec w)) else decode20 root w
  | 0x77 => if v then .ok (.cvstxvx (w.extractLsb' 32 4) (StD.dec w)) else decode20 root w
  | 0x78 => scalarOnly v w (decode20 root w)
  | 0x79 => scalarOnly v w (decode20 root w)
  | 0x7a => scalarOnly v w (decode20 root w)
  | 0x7b => scalarOnly v w (decode20 root w)
  | 0x7c => scalarOnly v w (decode20 root w)
  | 0x7d => scalarOnly v w (decode20 root w)
  | 0x7e => scalarOnly v w (decode20 root w)
  | 0x7f => scalarOnly v w (decode20 root w)
  | _ => .error (.blankOpcode (opOf w))

/-- The instruction of one word, or the name of the blank cell it lies in. The width is 20 bits when
bits 7:4 are 0111b and 36 bits otherwise (30 R100, 48 R670). -/
def decode (w : BitVec 36) : Except Reject Instr :=
  decodeRoot (rootOf w).toNat (funcOf w).toNat (func4Of w).toNat (vBit w) w

/-- The instruction the decoder reads from a word whose bits are `w`, bit 0 the least significant;
every bit above `nbits` is 0. -/
def decodeTableWord (nbits w : Nat) : Option Instr :=
  match decode (BitVec.ofNat 36 (w % 2 ^ nbits)) with
  | .ok i => some i
  | .error _ => none

end

/-! ### The encoder -/

/-- The word of an instruction; a 20-bit word stands in the low 20 bits. -/
def Instr.encode (i : Instr) : BitVec 36 :=
  match i with
  | .brk cause => brkWord cause
  | .cntlz v o => R1.enc 0x1#7 0x0#7 v 0#3 o
  | .cntlo v o => R1.enc 0x1#7 0x1#7 v 0#3 o
  | .cntpop v o => R1.enc 0x1#7 0x2#7 v 0#3 o
  | .com v o => R1.enc 0x1#7 0x3#7 v 0#3 o
  | .not v o => R1.enc 0x1#7 0x4#7 v 0#3 o
  | .neg v o => R1.enc 0x1#7 0x5#7 v 0#3 o
  | .abs v o => R1.enc 0x1#7 0x6#7 v 0#3 o
  | .nabs v o => R1.enc 0x1#7 0x7#7 v 0#3 o
  | .sqrt v o => R1.enc 0x1#7 0x8#7 v 0#3 o
  | .tst v o => R1.enc 0x1#7 0xb#7 v 0#3 o
  | .zxb v o => R1.enc 0x1#7 0xc#7 v 0#3 o
  | .zxw v o => R1.enc 0x1#7 0xd#7 v 0#3 o
  | .zxt v o => R1.enc 0x1#7 0xe#7 v 0#3 o
  | .ptrinc v o => R1.enc 0x1#7 0x10#7 v 0#3 o
  | .transform v o => R1.enc 0x1#7 0x11#7 v 0#3 o
  | .sxb v o => R1.enc 0x1#7 0x14#7 v 0#3 o
  | .sxw v o => R1.enc 0x1#7 0x15#7 v 0#3 o
  | .sxt v o => R1.enc 0x1#7 0x16#7 v 0#3 o
  | .clip v o => R1.enc 0x1#7 0x20#7 v 0#3 o
  | .v2bits o => R1.enc 0x1#7 0x18#7 true 0#3 o
  | .bits2v o => R1.enc 0x1#7 0x19#7 true 0#3 o
  | .vcmprss o => R1.enc 0x1#7 0x1c#7 true 0#3 o
  | .vcidx o => R1.enc 0x1#7 0x1d#7 true 0#3 o
  | .vscan o => R1.enc 0x1#7 0x1e#7 true 0#3 o
  | .and v o => R2.enc 0x2#7 0x0#7 v 0#2 o
  | .or v o => R2.enc 0x2#7 0x1#7 v 0#2 o
  | .xor v o => R2.enc 0x2#7 0x2#7 v 0#2 o
  | .add v o => R2.enc 0x2#7 0x4#7 v 0#2 o
  | .sub v o => R2.enc 0x2#7 0x5#7 v 0#2 o
  | .nand v o => R2.enc 0x2#7 0x8#7 v 0#2 o
  | .nor v o => R2.enc 0x2#7 0x9#7 v 0#2 o
  | .xnor v o => R2.enc 0x2#7 0xa#7 v 0#2 o
  | .mulu v o => R2.enc 0x2#7 0xe#7 v 0#2 o
  | .mulh v o => R2.enc 0x2#7 0xf#7 v 0#2 o
  | .divu v o => R2.enc 0x2#7 0x11#7 v 0#2 o
  | .rem v o => R2.enc 0x2#7 0x13#7 v 0#2 o
  | .remu v o => R2.enc 0x2#7 0x14#7 v 0#2 o
  | .remsu v o => R2.enc 0x2#7 0x15#7 v 0#2 o
  | .mulsu v o => R2.enc 0x2#7 0x16#7 v 0#2 o
  | .perm v o => R2.enc 0x2#7 0x17#7 v 0#2 o
  | .dif v o => R2.enc 0x2#7 0x18#7 v 0#2 o
  | .wydndx v o => R2.enc 0x2#7 0x1b#7 v 0#2 o
  | .mulf v o => R2.enc 0x2#7 0x1c#7 v 0#2 o
  | .mulsuh v o => R2.enc 0x2#7 0x1d#7 v 0#2 o
  | .muluh v o => R2.enc 0x2#7 0x1e#7 v 0#2 o
  | .cmp v o => R2.enc 0x2#7 0x20#7 v 0#2 o
  | .u21ndx v o => R2.enc 0x2#7 0x23#7 v 0#2 o
  | .seq v o => R2.enc 0x2#7 0x26#7 v 0#2 o
  | .sne v o => R2.enc 0x2#7 0x27#7 v 0#2 o
  | .min v o => R2.enc 0x2#7 0x28#7 v 0#2 o
  | .max v o => R2.enc 0x2#7 0x29#7 v 0#2 o
  | .slt v o => R2.enc 0x2#7 0x2c#7 v 0#2 o
  | .sge v o => R2.enc 0x2#7 0x2d#7 v 0#2 o
  | .sltu v o => R2.enc 0x2#7 0x2e#7 v 0#2 o
  | .sgeu v o => R2.enc 0x2#7 0x2f#7 v 0#2 o
  | .mor v o => R2.enc 0x2#7 0x30#7 v 0#2 o
  | .mxor v o => R2.enc 0x2#7 0x31#7 v 0#2 o
  | .mort v o => R2.enc 0x2#7 0x32#7 v 0#2 o
  | .mxort v o => R2.enc 0x2#7 0x33#7 v 0#2 o
  | .plot v o => R2.enc 0x2#7 0x34#7 v 0#2 o
  | .sll v o => R2.enc 0x2#7 0x40#7 v 0#2 o
  | .srl v o => R2.enc 0x2#7 0x41#7 v 0#2 o
  | .sra v o => R2.enc 0x2#7 0x42#7 v 0#2 o
  | .rol v o => R2.enc 0x2#7 0x43#7 v 0#2 o
  | .ror v o => R2.enc 0x2#7 0x44#7 v 0#2 o
  | .mul v opt o => R2.enc 0x2#7 0x6#7 v opt o
  | .div v opt o => R2.enc 0x2#7 0x10#7 v opt o
  | .divsu v opt o => R2.enc 0x2#7 0x12#7 v opt o
  | .myst o => R2.enc 0x2#7 0x1f#7 false 0#2 o
  | .rwCoeff o => R2.enc 0x2#7 0x3e#7 false 0#2 o
  | .slli v o => R2I.enc 0x2#7 0x48#7 v o
  | .srli v o => R2I.enc 0x2#7 0x49#7 v o
  | .srai v o => R2I.enc 0x2#7 0x4a#7 v o
  | .roli v o => R2I.enc 0x2#7 0x4b#7 v o
  | .rori v o => R2I.enc 0x2#7 0x4c#7 v o
  | .mulfDuplicate v o => R2.enc 0x2#7 0xd#7 v 0#2 o
  | .vsllv o => R2.enc 0x2#7 0x38#7 true 0#2 o
  | .vsrlv o => R2.enc 0x2#7 0x39#7 true 0#2 o
  | .vex o => R2.enc 0x2#7 0x3a#7 true 0#2 o
  | .veins o => R2.enc 0x2#7 0x3b#7 true 0#2 o
  | .mux v o => R2.enc 0x3#7 0x4#7 v 0#2 o
  | .sllp v o => R2.enc 0x3#7 0x10#7 v 0#2 o
  | .ptrdif v o => R2.enc 0x3#7 0x18#7 v 0#2 o
  | .blend v o => R2.enc 0x3#7 0x30#7 v 0#2 o
  | .fdp v o => R2.enc 0x3#7 0x37#7 v 0#2 o
  | .sllpi v o => R2I.enc 0x3#7 0x11#7 v o
  | .chkR3Form v o => ChkR.enc 0x3#7 0x22#7 v o
  | .dep v o => R2.enc 0x1c#7 0x3#7 v 0#2 o
  | .ext v o => R2.enc 0x1c#7 0x4#7 v 0#2 o
  | .extu v o => R2.enc 0x1c#7 0x5#7 v 0#2 o
  | .ffo v o => R2.enc 0x1c#7 0x6#7 v 0#2 o
  | .addImmediate v o => RI.enc 0x4#7 v o
  | .subfImmediate v o => RI.enc 0x5#7 v o
  | .mulImmediate v o => RI.enc 0x6#7 v o
  | .andImmediate v o => RI.enc 0x8#7 v o
  | .orImmediate v o => RI.enc 0x9#7 v o
  | .xorImmediate v o => RI.enc 0xa#7 v o
  | .muluImmediate v o => RI.enc 0xe#7 v o
  | .divImmediate v o => RI.enc 0x10#7 v o
  | .divuImmediate v o => RI.enc 0x11#7 v o
  | .divsuImmediate v o => RI.enc 0x12#7 v o
  | .mulfImmediate v o => RI.enc 0x15#7 v o
  | .mulsuImmediate v o => RI.enc 0x16#7 v o
  | .permImmediate v o => RI.enc 0x17#7 v o
  | .remImmediate v o => RI.enc 0x18#7 v o
  | .remuImmediate v o => RI.enc 0x19#7 v o
  | .wydndxImmediate v o => RI.enc 0x1b#7 v o
  | .remsuImmediate v o => RI.enc 0x20#7 v o
  | .divrImmediate v o => RI.enc 0x21#7 v o
  | .u21ndxImmediate v o => RI.enc 0x23#7 v o
  | .seqImmediate v o => RI.enc 0x26#7 v o
  | .sneImmediate v o => RI.enc 0x27#7 v o
  | .sltImmediate v o => RI.enc 0x28#7 v o
  | .sgtImmediate v o => RI.enc 0x29#7 v o
  | .sltuImmediate v o => RI.enc 0x2a#7 v o
  | .sgtuImmediate v o => RI.enc 0x2b#7 v o
  | .mystImmediate o => RI.enc 0x1f#7 false o
  | .sand o => RI.enc 0x24#7 false o
  | .sor o => RI.enc 0x25#7 false o
  | .setGroup v => wordV 0xd#7 v
  | .chkImmediate v o => ChkI.enc 0x22#7 v o
  | .bytndx v o => R2.enc 0x1a#7 0x0#7 v 0#2 o
  | .bytndxImmediate v o => BytI.enc 0x1a#7 v o
  | .csrrd o => Csr.enc 0x0#2 o
  | .csrrw o => Csr.enc 0x1#2 o
  | .csrrs o => Csr.enc 0x2#2 o
  | .csrrc o => Csr.enc 0x3#2 o
  | .llal => sysWord 0x0#7
  | .llah => sysWord 0x1#7
  | .lpal => sysWord 0x4#7
  | .lpah => sysWord 0x5#7
  | .setkey => sysWord 0x14#7
  | .setto => sysWord 0x18#7
  | .getto => sysWord 0x19#7
  | .getzl => sysWord 0x1a#7
  | .mvseg => sysWord 0x1d#7
  | .csave => sysWord 0x20#7
  | .crestore => sysWord 0x21#7
  | .exec a => sysA 0x7#7 a
  | .pushq b a => sysBA 0x8#7 b a
  | .popq a t => sysAT 0x9#7 a t
  | .peekq a t => sysAT 0xa#7 a t
  | .statq a t => sysAT 0xb#7 a t
  | .pushqi q a => sysQA 0xc#7 q a
  | .popqi q t => sysQT 0xd#7 q t
  | .peekqi q t => sysQT 0xe#7 q t
  | .statqi q t => sysQT 0xf#7 q t
  | .rex tm => rexWord tm
  | .pfi t => sysT 0x11#7 t
  | .wfi => sysWord 0x12#7
  | .rte b offset => rteWord b offset
  | .tlbrw o => R2.enc 0x7#7 0x1e#7 false 0#2 o
  | .sync => sysWord 0x1f#7
  | .fmov v o => R1.enc 0x34#7 0x0#7 v 0#3 o
  | .frsqrt v o => R1.enc 0x34#7 0x1#7 v 0#3 o
  | .ftoi v o => R1.enc 0x34#7 0x2#7 v 0#3 o
  | .itof v o => R1.enc 0x34#7 0x3#7 v 0#3 o
  | .fsign v o => R1.enc 0x34#7 0x6#7 v 0#3 o
  | .fman v o => R1.enc 0x34#7 0x7#7 v 0#3 o
  | .fs2d v o => R1.enc 0x34#7 0x9#7 v 0#3 o
  | .fs2q v o => R1.enc 0x34#7 0xa#7 v 0#3 o
  | .fd2q v o => R1.enc 0x34#7 0xb#7 v 0#3 o
  | .fstat v o => R1.enc 0x34#7 0xc#7 v 0#3 o
  | .isnan v o => R1.enc 0x34#7 0xe#7 v 0#3 o
  | .finite v o => R1.enc 0x34#7 0xf#7 v 0#3 o
  | .ftx v o => R1.enc 0x34#7 0x10#7 v 0#3 o
  | .fcx v o => R1.enc 0x34#7 0x11#7 v 0#3 o
  | .fex v o => R1.enc 0x34#7 0x12#7 v 0#3 o
  | .fdx v o => R1.enc 0x34#7 0x13#7 v 0#3 o
  | .frm v o => R1.enc 0x34#7 0x14#7 v 0#3 o
  | .trunc v o => R1.enc 0x34#7 0x15#7 v 0#3 o
  | .fsync v o => R1.enc 0x34#7 0x16#7 v 0#3 o
  | .fres v o => R1.enc 0x34#7 0x17#7 v 0#3 o
  | .fsigmoid v o => R1.enc 0x34#7 0x18#7 v 0#3 o
  | .fd2s v o => R1.enc 0x34#7 0x19#7 v 0#3 o
  | .fq2s v o => R1.enc 0x34#7 0x1a#7 v 0#3 o
  | .fq2d v o => R1.enc 0x34#7 0x1b#7 v 0#3 o
  | .fclass v o => R1.enc 0x34#7 0x1e#7 v 0#3 o
  | .unord v o => R1.enc 0x34#7 0x1f#7 v 0#3 o
  | .fsqrt v rm o => R1.enc 0x34#7 0x8#7 v rm o
  | .fabs v o => R1.enc 0x34#7 0x20#7 v 0#3 o
  | .fnabs v o => R1.enc 0x34#7 0x21#7 v 0#3 o
  | .fneg v o => R1.enc 0x34#7 0x22#7 v 0#3 o
  | .scaleb v o => R2.enc 0x35#7 0x0#7 v 0#2 o
  | .fmin v o => R2.enc 0x35#7 0x2#7 v 0#2 o
  | .fmax v o => R2.enc 0x35#7 0x3#7 v 0#2 o
  | .fadd v o => R2.enc 0x35#7 0x4#7 v 0#2 o
  | .fsub v o => R2.enc 0x35#7 0x5#7 v 0#2 o
  | .fmul v o => R2.enc 0x35#7 0x8#7 v 0#2 o
  | .fdiv v o => R2.enc 0x35#7 0x9#7 v 0#2 o
  | .frem v o => R2.enc 0x35#7 0xa#7 v 0#2 o
  | .fnxt v o => R2.enc 0x35#7 0xb#7 v 0#2 o
  | .fcmp v o => R2.enc 0x35#7 0x10#7 v 0#2 o
  | .fseq v o => R2.enc 0x35#7 0x11#7 v 0#2 o
  | .fslt v o => R2.enc 0x35#7 0x12#7 v 0#2 o
  | .fsle v o => R2.enc 0x35#7 0x13#7 v 0#2 o
  | .fsne v o => R2.enc 0x35#7 0x14#7 v 0#2 o
  | .fcmpb v o => R2.enc 0x35#7 0x15#7 v 0#2 o
  | .fsetm v o => R2.enc 0x35#7 0x16#7 v 0#2 o
  | .cpysgn v o => R2.enc 0x35#7 0x18#7 v 0#2 o
  | .sgninv v o => R2.enc 0x35#7 0x19#7 v 0#2 o
  | .sgnand v o => R2.enc 0x35#7 0x1a#7 v 0#2 o
  | .sgnor v o => R2.enc 0x35#7 0x1b#7 v 0#2 o
  | .sgnxor v o => R2.enc 0x35#7 0x1c#7 v 0#2 o
  | .sgnxnor v o => R2.enc 0x35#7 0x1d#7 v 0#2 o
  | .fclassDyadic v o => R2.enc 0x35#7 0x1e#7 v 0#2 o
  | .fma v o => R2.enc 0x36#7 0x0#7 v 0#2 o
  | .fms v o => R2.enc 0x36#7 0x1#7 v 0#2 o
  | .fnma v o => R2.enc 0x36#7 0x2#7 v 0#2 o
  | .fnms v o => R2.enc 0x36#7 0x3#7 v 0#2 o
  | .f4Group v => wordV 0x37#7 v
  | .dfabs v o => R1.enc 0x30#7 0x20#7 v 0#3 o
  | .dfnabs v o => R1.enc 0x30#7 0x21#7 v 0#3 o
  | .dfneg v o => R1.enc 0x30#7 0x22#7 v 0#3 o
  | .dfsqrt v rm o => R1.enc 0x30#7 0x8#7 v rm o
  | .pabs v o => R1.enc 0x38#7 0x20#7 v 0#3 o
  | .pnabs v o => R1.enc 0x38#7 0x21#7 v 0#3 o
  | .pneg v o => R1.enc 0x38#7 0x22#7 v 0#3 o
  | .psqrt v rm o => R1.enc 0x38#7 0x8#7 v rm o
  | .dfmin v o => R2.enc 0x31#7 0x2#7 v 0#2 o
  | .dfmax v o => R2.enc 0x31#7 0x3#7 v 0#2 o
  | .dfadd v o => R2.enc 0x31#7 0x4#7 v 0#2 o
  | .dfsub v o => R2.enc 0x31#7 0x5#7 v 0#2 o
  | .dfmul v o => R2.enc 0x31#7 0x8#7 v 0#2 o
  | .dfdiv v o => R2.enc 0x31#7 0x9#7 v 0#2 o
  | .dfrem v o => R2.enc 0x31#7 0xa#7 v 0#2 o
  | .dfnxt v o => R2.enc 0x31#7 0xb#7 v 0#2 o
  | .dfcmp v o => R2.enc 0x31#7 0x10#7 v 0#2 o
  | .dfseq v o => R2.enc 0x31#7 0x11#7 v 0#2 o
  | .dfslt v o => R2.enc 0x31#7 0x12#7 v 0#2 o
  | .dfsle v o => R2.enc 0x31#7 0x13#7 v 0#2 o
  | .dfsne v o => R2.enc 0x31#7 0x14#7 v 0#2 o
  | .dfcmpb v o => R2.enc 0x31#7 0x15#7 v 0#2 o
  | .dfsetm v o => R2.enc 0x31#7 0x16#7 v 0#2 o
  | .padd v o => R2.enc 0x39#7 0x4#7 v 0#2 o
  | .psub v o => R2.enc 0x39#7 0x5#7 v 0#2 o
  | .pmul v o => R2.enc 0x39#7 0x8#7 v 0#2 o
  | .pdiv v o => R2.enc 0x39#7 0x9#7 v 0#2 o
  | .psle v o => R2.enc 0x39#7 0x13#7 v 0#2 o
  | .df3Group v => wordV 0x32#7 v
  | .df4Group v => wordV 0x33#7 v
  | .pst3Group v => wordV 0x3a#7 v
  | .pst4Group v => wordV 0x3b#7 v
  | .link o => RI.enc 0x3c#7 false o
  | .unlink o => Two.enc 0x3d#7 false o
  | .nop v => wordV 0x3f#7 v
  | .mand o => MaskRRR.enc 0x0#7 o
  | .morMask o => MaskRRR.enc 0x1#7 o
  | .mxorMask o => MaskRRR.enc 0x2#7 o
  | .madd o => MaskRRR.enc 0x4#7 o
  | .msub o => MaskRRR.enc 0x5#7 o
  | .mnand o => MaskRRR.enc 0x8#7 o
  | .mnor o => MaskRRR.enc 0x9#7 o
  | .mxnor o => MaskRRR.enc 0xa#7 o
  | .msll o => MaskShift.enc 0x6#7 o
  | .msrl o => MaskShift.enc 0x7#7 o
  | .mfill o => ToMask.enc 0xc#7 o
  | .mpop o => FromMask.enc 0xd#7 o
  | .mfirst o => FromMask.enc 0xe#7 o
  | .mlast o => FromMask.enc 0xf#7 o
  | .mtm o => ToMask.enc 0x10#7 o
  | .mfm o => FromMask.enc 0x11#7 o
  | .mtvl a => mtvlWord a
  | .mfvl tt rt => mfvlWord tt rt
  | .jal addr rt => jalWord 0x40#7 addr rt
  | .bal addr rt => jalWord 0x41#7 addr rt
  | .jalr o => RI.enc 0x42#7 false o
  | .fbeq o => Branch.enc 0x46#7 o
  | .fbne o => Branch.enc 0x47#7 o
  | .blt o => Branch.enc 0x48#7 o
  | .bge o => Branch.enc 0x49#7 o
  | .bltu o => Branch.enc 0x4a#7 o
  | .bgeu o => Branch.enc 0x4b#7 o
  | .bbs o => Branch.enc 0x4d#7 o
  | .beq o => Branch.enc 0x4e#7 o
  | .bne o => Branch.enc 0x4f#7 o
  | .blank43h => wordV 0x43#7 false
  | .blank44h => wordV 0x44#7 false
  | .blank45h => wordV 0x45#7 false
  | .blank4ch => wordV 0x4c#7 false
  | .exi0 payload => exiWord 0x50#7 payload
  | .exi1 payload => exiWord 0x51#7 payload
  | .exi2 payload => exiWord 0x52#7 payload
  | .exi3 payload => exiWord 0x53#7 payload
  | .exi4 payload => exiWord 0x54#7 payload
  | .imod v o => ImodOps.enc v o
  | .brmod o => BrmodOps.enc o
  | .stride v o => StrideOps.enc v o
  | .reglist list => reglistWord list
  | .ldb o => LdD.enc 0x60#7 false 0x0#4 o
  | .ldbIndexed o => LdX.enc 0x61#7 0x0#4 o
  | .ldw o => LdD.enc 0x60#7 false 0x1#4 o
  | .ldwIndexed o => LdX.enc 0x61#7 0x1#4 o
  | .ldt o => LdD.enc 0x60#7 false 0x2#4 o
  | .ldtIndexed o => LdX.enc 0x61#7 0x2#4 o
  | .ldo o => LdD.enc 0x60#7 false 0x3#4 o
  | .ldoIndexed o => LdX.enc 0x61#7 0x3#4 o
  | .ldbz o => LdD.enc 0x64#7 false 0x0#4 o
  | .ldbzIndexed o => LdX.enc 0x65#7 0x0#4 o
  | .ldwz o => LdD.enc 0x64#7 false 0x1#4 o
  | .ldwzIndexed o => LdX.enc 0x65#7 0x1#4 o
  | .ldtz o => LdD.enc 0x64#7 false 0x2#4 o
  | .ldtzIndexed o => LdX.enc 0x65#7 0x2#4 o
  | .ldoAt64h o => LdD.enc 0x64#7 false 0x3#4 o
  | .ldoIndexedAt65h o => LdX.enc 0x65#7 0x3#4 o
  | .ldptrAt60h o => LdD.enc 0x60#7 false 0x7#4 o
  | .ldptrAt61h o => LdX.enc 0x61#7 0x7#4 o
  | .ldptrAt64h o => LdD.enc 0x64#7 false 0x7#4 o
  | .ldptrAt65h o => LdX.enc 0x65#7 0x7#4 o
  | .ldmAt60h o => LdD.enc 0x60#7 false 0xd#4 o
  | .ldmAt61h o => LdX.enc 0x61#7 0xd#4 o
  | .loadFunc4Is4At60h o => LdD.enc 0x60#7 false 0x4#4 o
  | .loadFunc4Is5At60h o => LdD.enc 0x60#7 false 0x5#4 o
  | .loadFunc4Is4At61h o => LdX.enc 0x61#7 0x4#4 o
  | .loadFunc4Is5At61h o => LdX.enc 0x61#7 0x5#4 o
  | .loadFunc4Is4At64h o => LdD.enc 0x64#7 false 0x4#4 o
  | .loadFunc4Is5At64h o => LdD.enc 0x64#7 false 0x5#4 o
  | .loadFunc4Is4At65h o => LdX.enc 0x65#7 0x4#4 o
  | .loadFunc4Is5At65h o => LdX.enc 0x65#7 0x5#4 o
  | .cache o => CacheOps.enc o
  | .stb o => StD.enc 0x68#7 false 0x0#4 o
  | .stbIndexed o => StX.enc 0x69#7 0x0#4 o
  | .stw o => StD.enc 0x68#7 false 0x1#4 o
  | .stwIndexed o => StX.enc 0x69#7 0x1#4 o
  | .stt o => StD.enc 0x68#7 false 0x2#4 o
  | .sttIndexed o => StX.enc 0x69#7 0x2#4 o
  | .sto o => StD.enc 0x68#7 false 0x3#4 o
  | .stoIndexed o => StX.enc 0x69#7 0x3#4 o
  | .stptr o => StD.enc 0x68#7 false 0x7#4 o
  | .stptrIndexed o => StX.enc 0x69#7 0x7#4 o
  | .stm o => StD.enc 0x68#7 false 0xd#4 o
  | .stmIndexed o => StX.enc 0x69#7 0xd#4 o
  | .pop o => R2.enc 0x67#7 0x8#7 false 0#2 o
  | .popPair o => R2.enc 0x67#7 0x10#7 false 0#2 o
  | .push o => R2.enc 0x6f#7 0x8#7 false 0#2 o
  | .pushPair o => R2.enc 0x6f#7 0x10#7 false 0#2 o
  | .ldsx f4 o => LdD.enc 0x62#7 true f4 o
  | .ldxvx f4 o => LdD.enc 0x63#7 true f4 o
  | .cvldsx f4 o => LdD.enc 0x66#7 true f4 o
  | .cvldxvx f4 o => LdD.enc 0x67#7 true f4 o
  | .stsx f4 o => StD.enc 0x72#7 true f4 o
  | .stxvx f4 o => StD.enc 0x73#7 true f4 o
  | .cvstsx f4 o => StD.enc 0x76#7 true f4 o
  | .cvstxvx f4 o => StD.enc 0x77#7 true f4 o
  | .cRti => word20 (0x78#7 ++ 0x0#5) 0x70#8
  | .cPfi => word20 (0x79#7 ++ 0x0#5) 0x70#8
  | .cWfi => word20 (0x7b#7 ++ 0x0#5) 0x70#8
  | .cSync => word20 (0x7d#7 ++ 0x0#5) 0x70#8
  | .cBrk cause => word20 (cause ++ 0x0#5) 0x70#8
  | .cLdoFp k r => word20 (k ++ r) 0x70#8
  | .cLdoSp k r => word20 (k ++ r) 0x71#8
  | .cStoFp k r => word20 (k ++ r) 0x72#8
  | .cStoSp k r => word20 (k ++ r) 0x73#8
  | .cJmp ra rt => word20 (0x0#2 ++ ra ++ 0x0#3 ++ rt) 0x74#8
  | .cMov ra rt => word20 (0x1#2 ++ ra ++ rt) 0x74#8
  | .cAdd ra rt => word20 (0x2#2 ++ ra ++ rt) 0x74#8
  | .cAnd ra rt => word20 (0x3#2 ++ ra ++ rt) 0x74#8
  | .cAddi k r => word20 (k ++ r) 0x75#8
  | .cAndi k r => word20 (k ++ r) 0x76#8
  | .cOri k r => word20 (k ++ r) 0x77#8
  | .cBeqz k r => word20 (k ++ r) 0x78#8
  | .cBnez k r => word20 (k ++ r) 0x79#8
  | .cBal k rt => word20 (k ++ rt) 0x7a#8
  | .cLdi k r => word20 (k ++ r) 0x7b#8
  | .cSlli k rt => word20 (0x0#2 ++ k ++ rt) 0x7c#8
  | .cSrli k rt => word20 (0x1#2 ++ k ++ rt) 0x7c#8
  | .cSrai k rt => word20 (0x2#2 ++ k ++ rt) 0x7c#8
  | .cSub rb rt => word20 (0x3#2 ++ 0x0#2 ++ rb ++ 0x0#2 ++ rt) 0x7c#8
  | .cOr rb rt => word20 (0x3#2 ++ 0x0#2 ++ rb ++ 0x1#2 ++ rt) 0x7c#8
  | .cXor rb rt => word20 (0x3#2 ++ 0x0#2 ++ rb ++ 0x2#2 ++ rt) 0x7c#8
  | .cNand rb rt => word20 (0x3#2 ++ 0x0#2 ++ rb ++ 0x3#2 ++ rt) 0x7c#8
  | .cNor rb rt => word20 (0x3#2 ++ 0x1#2 ++ rb ++ 0x0#2 ++ rt) 0x7c#8
  | .c7chUnlisted => word20 0xe00#12 0x7c#8
  | .c7dhReserved => word20 0x0#12 0x7d#8
  | .cLdmSp list e => word20 (list ++ BitVec.ofBool e) 0x7e#8
  | .c7fhNoRow => word20 0x0#12 0x7f#8
  | .scalebDecimal v o => R2.enc 0x31#7 0x0#7 v 0#2 o
  | .cpysgnDecimal v o => R2.enc 0x31#7 0x18#7 v 0#2 o
  | .sgninvDecimal v o => R2.enc 0x31#7 0x19#7 v 0#2 o
  | .sgnandDecimal v o => R2.enc 0x31#7 0x1a#7 v 0#2 o
  | .sgnorDecimal v o => R2.enc 0x31#7 0x1b#7 v 0#2 o
  | .sgnxorDecimal v o => R2.enc 0x31#7 0x1c#7 v 0#2 o
  | .sgnxnorDecimal v o => R2.enc 0x31#7 0x1d#7 v 0#2 o
  | .fclassDecimal v o => R2.enc 0x31#7 0x1e#7 v 0#2 o
  | .loadFunc4Is13At64h o => LdD.enc 0x64#7 false 0xd#4 o
  | .loadFunc4Is13At65h o => LdX.enc 0x65#7 0xd#4 o
  | .c74hReserved => word20 0x004#12 0x74#8

/-- Whether the instruction is a 20-bit word: five nybbles instead of nine (48 R670). -/
def Instr.isShort (i : Instr) : Bool :=
  match i with
  | .brk _ => false
  | .cntlz _ _ => false
  | .cntlo _ _ => false
  | .cntpop _ _ => false
  | .com _ _ => false
  | .not _ _ => false
  | .neg _ _ => false
  | .abs _ _ => false
  | .nabs _ _ => false
  | .sqrt _ _ => false
  | .tst _ _ => false
  | .zxb _ _ => false
  | .zxw _ _ => false
  | .zxt _ _ => false
  | .ptrinc _ _ => false
  | .transform _ _ => false
  | .sxb _ _ => false
  | .sxw _ _ => false
  | .sxt _ _ => false
  | .clip _ _ => false
  | .v2bits _ => false
  | .bits2v _ => false
  | .vcmprss _ => false
  | .vcidx _ => false
  | .vscan _ => false
  | .and _ _ => false
  | .or _ _ => false
  | .xor _ _ => false
  | .add _ _ => false
  | .sub _ _ => false
  | .nand _ _ => false
  | .nor _ _ => false
  | .xnor _ _ => false
  | .mulu _ _ => false
  | .mulh _ _ => false
  | .divu _ _ => false
  | .rem _ _ => false
  | .remu _ _ => false
  | .remsu _ _ => false
  | .mulsu _ _ => false
  | .perm _ _ => false
  | .dif _ _ => false
  | .wydndx _ _ => false
  | .mulf _ _ => false
  | .mulsuh _ _ => false
  | .muluh _ _ => false
  | .cmp _ _ => false
  | .u21ndx _ _ => false
  | .seq _ _ => false
  | .sne _ _ => false
  | .min _ _ => false
  | .max _ _ => false
  | .slt _ _ => false
  | .sge _ _ => false
  | .sltu _ _ => false
  | .sgeu _ _ => false
  | .mor _ _ => false
  | .mxor _ _ => false
  | .mort _ _ => false
  | .mxort _ _ => false
  | .plot _ _ => false
  | .sll _ _ => false
  | .srl _ _ => false
  | .sra _ _ => false
  | .rol _ _ => false
  | .ror _ _ => false
  | .mul _ _ _ => false
  | .div _ _ _ => false
  | .divsu _ _ _ => false
  | .myst _ => false
  | .rwCoeff _ => false
  | .slli _ _ => false
  | .srli _ _ => false
  | .srai _ _ => false
  | .roli _ _ => false
  | .rori _ _ => false
  | .mulfDuplicate _ _ => false
  | .vsllv _ => false
  | .vsrlv _ => false
  | .vex _ => false
  | .veins _ => false
  | .mux _ _ => false
  | .sllp _ _ => false
  | .ptrdif _ _ => false
  | .blend _ _ => false
  | .fdp _ _ => false
  | .sllpi _ _ => false
  | .chkR3Form _ _ => false
  | .dep _ _ => false
  | .ext _ _ => false
  | .extu _ _ => false
  | .ffo _ _ => false
  | .addImmediate _ _ => false
  | .subfImmediate _ _ => false
  | .mulImmediate _ _ => false
  | .andImmediate _ _ => false
  | .orImmediate _ _ => false
  | .xorImmediate _ _ => false
  | .muluImmediate _ _ => false
  | .divImmediate _ _ => false
  | .divuImmediate _ _ => false
  | .divsuImmediate _ _ => false
  | .mulfImmediate _ _ => false
  | .mulsuImmediate _ _ => false
  | .permImmediate _ _ => false
  | .remImmediate _ _ => false
  | .remuImmediate _ _ => false
  | .wydndxImmediate _ _ => false
  | .remsuImmediate _ _ => false
  | .divrImmediate _ _ => false
  | .u21ndxImmediate _ _ => false
  | .seqImmediate _ _ => false
  | .sneImmediate _ _ => false
  | .sltImmediate _ _ => false
  | .sgtImmediate _ _ => false
  | .sltuImmediate _ _ => false
  | .sgtuImmediate _ _ => false
  | .mystImmediate _ => false
  | .sand _ => false
  | .sor _ => false
  | .setGroup _ => false
  | .chkImmediate _ _ => false
  | .bytndx _ _ => false
  | .bytndxImmediate _ _ => false
  | .csrrd _ => false
  | .csrrw _ => false
  | .csrrs _ => false
  | .csrrc _ => false
  | .llal => false
  | .llah => false
  | .lpal => false
  | .lpah => false
  | .setkey => false
  | .setto => false
  | .getto => false
  | .getzl => false
  | .mvseg => false
  | .csave => false
  | .crestore => false
  | .exec _ => false
  | .pushq _ _ => false
  | .popq _ _ => false
  | .peekq _ _ => false
  | .statq _ _ => false
  | .pushqi _ _ => false
  | .popqi _ _ => false
  | .peekqi _ _ => false
  | .statqi _ _ => false
  | .rex _ => false
  | .pfi _ => false
  | .wfi => false
  | .rte _ _ => false
  | .tlbrw _ => false
  | .sync => false
  | .fmov _ _ => false
  | .frsqrt _ _ => false
  | .ftoi _ _ => false
  | .itof _ _ => false
  | .fsign _ _ => false
  | .fman _ _ => false
  | .fs2d _ _ => false
  | .fs2q _ _ => false
  | .fd2q _ _ => false
  | .fstat _ _ => false
  | .isnan _ _ => false
  | .finite _ _ => false
  | .ftx _ _ => false
  | .fcx _ _ => false
  | .fex _ _ => false
  | .fdx _ _ => false
  | .frm _ _ => false
  | .trunc _ _ => false
  | .fsync _ _ => false
  | .fres _ _ => false
  | .fsigmoid _ _ => false
  | .fd2s _ _ => false
  | .fq2s _ _ => false
  | .fq2d _ _ => false
  | .fclass _ _ => false
  | .unord _ _ => false
  | .fsqrt _ _ _ => false
  | .fabs _ _ => false
  | .fnabs _ _ => false
  | .fneg _ _ => false
  | .scaleb _ _ => false
  | .fmin _ _ => false
  | .fmax _ _ => false
  | .fadd _ _ => false
  | .fsub _ _ => false
  | .fmul _ _ => false
  | .fdiv _ _ => false
  | .frem _ _ => false
  | .fnxt _ _ => false
  | .fcmp _ _ => false
  | .fseq _ _ => false
  | .fslt _ _ => false
  | .fsle _ _ => false
  | .fsne _ _ => false
  | .fcmpb _ _ => false
  | .fsetm _ _ => false
  | .cpysgn _ _ => false
  | .sgninv _ _ => false
  | .sgnand _ _ => false
  | .sgnor _ _ => false
  | .sgnxor _ _ => false
  | .sgnxnor _ _ => false
  | .fclassDyadic _ _ => false
  | .fma _ _ => false
  | .fms _ _ => false
  | .fnma _ _ => false
  | .fnms _ _ => false
  | .f4Group _ => false
  | .dfabs _ _ => false
  | .dfnabs _ _ => false
  | .dfneg _ _ => false
  | .dfsqrt _ _ _ => false
  | .pabs _ _ => false
  | .pnabs _ _ => false
  | .pneg _ _ => false
  | .psqrt _ _ _ => false
  | .dfmin _ _ => false
  | .dfmax _ _ => false
  | .dfadd _ _ => false
  | .dfsub _ _ => false
  | .dfmul _ _ => false
  | .dfdiv _ _ => false
  | .dfrem _ _ => false
  | .dfnxt _ _ => false
  | .dfcmp _ _ => false
  | .dfseq _ _ => false
  | .dfslt _ _ => false
  | .dfsle _ _ => false
  | .dfsne _ _ => false
  | .dfcmpb _ _ => false
  | .dfsetm _ _ => false
  | .padd _ _ => false
  | .psub _ _ => false
  | .pmul _ _ => false
  | .pdiv _ _ => false
  | .psle _ _ => false
  | .df3Group _ => false
  | .df4Group _ => false
  | .pst3Group _ => false
  | .pst4Group _ => false
  | .link _ => false
  | .unlink _ => false
  | .nop _ => false
  | .mand _ => false
  | .morMask _ => false
  | .mxorMask _ => false
  | .madd _ => false
  | .msub _ => false
  | .mnand _ => false
  | .mnor _ => false
  | .mxnor _ => false
  | .msll _ => false
  | .msrl _ => false
  | .mfill _ => false
  | .mpop _ => false
  | .mfirst _ => false
  | .mlast _ => false
  | .mtm _ => false
  | .mfm _ => false
  | .mtvl _ => false
  | .mfvl _ _ => false
  | .jal _ _ => false
  | .bal _ _ => false
  | .jalr _ => false
  | .fbeq _ => false
  | .fbne _ => false
  | .blt _ => false
  | .bge _ => false
  | .bltu _ => false
  | .bgeu _ => false
  | .bbs _ => false
  | .beq _ => false
  | .bne _ => false
  | .blank43h => false
  | .blank44h => false
  | .blank45h => false
  | .blank4ch => false
  | .exi0 _ => false
  | .exi1 _ => false
  | .exi2 _ => false
  | .exi3 _ => false
  | .exi4 _ => false
  | .imod _ _ => false
  | .brmod _ => false
  | .stride _ _ => false
  | .reglist _ => false
  | .ldb _ => false
  | .ldbIndexed _ => false
  | .ldw _ => false
  | .ldwIndexed _ => false
  | .ldt _ => false
  | .ldtIndexed _ => false
  | .ldo _ => false
  | .ldoIndexed _ => false
  | .ldbz _ => false
  | .ldbzIndexed _ => false
  | .ldwz _ => false
  | .ldwzIndexed _ => false
  | .ldtz _ => false
  | .ldtzIndexed _ => false
  | .ldoAt64h _ => false
  | .ldoIndexedAt65h _ => false
  | .ldptrAt60h _ => false
  | .ldptrAt61h _ => false
  | .ldptrAt64h _ => false
  | .ldptrAt65h _ => false
  | .ldmAt60h _ => false
  | .ldmAt61h _ => false
  | .loadFunc4Is4At60h _ => false
  | .loadFunc4Is5At60h _ => false
  | .loadFunc4Is4At61h _ => false
  | .loadFunc4Is5At61h _ => false
  | .loadFunc4Is4At64h _ => false
  | .loadFunc4Is5At64h _ => false
  | .loadFunc4Is4At65h _ => false
  | .loadFunc4Is5At65h _ => false
  | .cache _ => false
  | .stb _ => false
  | .stbIndexed _ => false
  | .stw _ => false
  | .stwIndexed _ => false
  | .stt _ => false
  | .sttIndexed _ => false
  | .sto _ => false
  | .stoIndexed _ => false
  | .stptr _ => false
  | .stptrIndexed _ => false
  | .stm _ => false
  | .stmIndexed _ => false
  | .pop _ => false
  | .popPair _ => false
  | .push _ => false
  | .pushPair _ => false
  | .ldsx _ _ => false
  | .ldxvx _ _ => false
  | .cvldsx _ _ => false
  | .cvldxvx _ _ => false
  | .stsx _ _ => false
  | .stxvx _ _ => false
  | .cvstsx _ _ => false
  | .cvstxvx _ _ => false
  | .cRti => true
  | .cPfi => true
  | .cWfi => true
  | .cSync => true
  | .cBrk _ => true
  | .cLdoFp _ _ => true
  | .cLdoSp _ _ => true
  | .cStoFp _ _ => true
  | .cStoSp _ _ => true
  | .cJmp _ _ => true
  | .cMov _ _ => true
  | .cAdd _ _ => true
  | .cAnd _ _ => true
  | .cAddi _ _ => true
  | .cAndi _ _ => true
  | .cOri _ _ => true
  | .cBeqz _ _ => true
  | .cBnez _ _ => true
  | .cBal _ _ => true
  | .cLdi _ _ => true
  | .cSlli _ _ => true
  | .cSrli _ _ => true
  | .cSrai _ _ => true
  | .cSub _ _ => true
  | .cOr _ _ => true
  | .cXor _ _ => true
  | .cNand _ _ => true
  | .cNor _ _ => true
  | .c7chUnlisted => true
  | .c7dhReserved => true
  | .cLdmSp _ _ => true
  | .c7fhNoRow => true
  | .scalebDecimal _ _ => false
  | .cpysgnDecimal _ _ => false
  | .sgninvDecimal _ _ => false
  | .sgnandDecimal _ _ => false
  | .sgnorDecimal _ _ => false
  | .sgnxorDecimal _ _ => false
  | .sgnxnorDecimal _ _ => false
  | .fclassDecimal _ _ => false
  | .loadFunc4Is13At64h _ => false
  | .loadFunc4Is13At65h _ => false
  | .c74hReserved => true

end Sys2Proof
end

