-- ==== Sys2Proof/Machine/IntR1.lean ====
section
/-! DEFINITION. The one-source integer instructions of the R1 group (30 R133, 40, 41). -/

namespace Sys2Proof.Machine

variable {P : Config.Params}

/-- CNTLZ (40 R219). -/
def execCntlz (v : Bool) (o : R1) (s : State P) : Out P :=
  opR1 v o cntlzWord s

/-- CNTLO (40 R220). -/
def execCntlo (v : Bool) (o : R1) (s : State P) : Out P :=
  opR1 v o cntloWord s

/-- CNTPOP (40 R218). -/
def execCntpop (v : Bool) (o : R1) (s : State P) : Out P :=
  opR1 v o cntpopWord s

/-- COM (40 R221). -/
def execCom (v : Bool) (o : R1) (s : State P) : Out P :=
  opR1 v o (fun a => ~~~a) s

/-- NOT (41 R266). -/
def execNot (v : Bool) (o : R1) (s : State P) : Out P :=
  opR1 v o (fun a => Word.ofBool (a == 0#64)) s

/-- NEG (41 R265). -/
def execNeg (v : Bool) (o : R1) (s : State P) : Out P :=
  opR1 v o (fun a => 0#64 - a) s

/-- ABS (40 R204). -/
def execAbs (v : Bool) (o : R1) (s : State P) : Out P :=
  opR1 v o absWord s

/-- NABS (41 R263). -/
def execNabs (v : Bool) (o : R1) (s : State P) : Out P :=
  opR1 v o nabsWord s

/-- SQRT (41 R295). -/
def execSqrt (v : Bool) (o : R1) (s : State P) : Out P :=
  opR1 v o sqrtWord s

/-- ZXB (41 R307). -/
def execZxb (v : Bool) (o : R1) (s : State P) : Out P :=
  opR1 v o (Word.zextLow 8) s

/-- ZXW (41 R308). -/
def execZxw (v : Bool) (o : R1) (s : State P) : Out P :=
  opR1 v o (Word.zextLow 16) s

/-- ZXT (41 R309). -/
def execZxt (v : Bool) (o : R1) (s : State P) : Out P :=
  opR1 v o (Word.zextLow 32) s

/-- SXB (41 R298). -/
def execSxb (v : Bool) (o : R1) (s : State P) : Out P :=
  opR1 v o (Word.sextLow 8) s

/-- SXW (41 R299). -/
def execSxw (v : Bool) (o : R1) (s : State P) : Out P :=
  opR1 v o (Word.sextLow 16) s

/-- SXT (41 R300). -/
def execSxt (v : Bool) (o : R1) (s : State P) : Out P :=
  opR1 v o (Word.sextLow 32) s

/-- TST: raises Unimplemented (41 R319). -/
def execTst (_ : Bool) (_ : R1) (s : State P) : Out P :=
  .next s.unimplemented

/-- PTRINC: raises Unimplemented (41 R320). -/
def execPtrinc (_ : Bool) (_ : R1) (s : State P) : Out P :=
  .next s.unimplemented

end Sys2Proof.Machine
end

