-- ==== Sys2Proof/Machine/IntR2.lean ====
section
/-! DEFINITION. The two-source integer instructions of the R2 group (30 R134, 40, 41). -/

namespace Sys2Proof.Machine

variable {P : Config.Params}

/-- AND (40 R208). -/
def execAnd (v : Bool) (o : R2) (s : State P) : Out P :=
  opR2 sext6 v o (fun a b => a &&& b) s

/-- OR (41 R268). -/
def execOr (v : Bool) (o : R2) (s : State P) : Out P :=
  opR2 sext6 v o (fun a b => a ||| b) s

/-- XOR (41 R306). -/
def execXor (v : Bool) (o : R2) (s : State P) : Out P :=
  opR2 sext6 v o (fun a b => a ^^^ b) s

/-- ADD (40 R206). -/
def execAdd (v : Bool) (o : R2) (s : State P) : Out P :=
  opR2 sext6 v o (fun a b => a + b) s

/-- SUB (41 R297). -/
def execSub (v : Bool) (o : R2) (s : State P) : Out P :=
  opR2 sext6 v o (fun a b => a - b) s

/-- NAND (40 R254). -/
def execNand (v : Bool) (o : R2) (s : State P) : Out P :=
  opR2 sext6 v o (fun a b => ~~~(a &&& b)) s

/-- NOR (40 R255). -/
def execNor (v : Bool) (o : R2) (s : State P) : Out P :=
  opR2 sext6 v o (fun a b => ~~~(a ||| b)) s

/-- XNOR (40 R256). -/
def execXnor (v : Bool) (o : R2) (s : State P) : Out P :=
  opR2 sext6 v o (fun a b => ~~~(a ^^^ b)) s

/-- MULU (40 R241). -/
def execMulu (v : Bool) (o : R2) (s : State P) : Out P :=
  opR2 zext6 v o (fun a b => a * b) s

/-- MULH (40 R251). -/
def execMulh (v : Bool) (o : R2) (s : State P) : Out P :=
  opR2 sext6 v o mulhWord s

/-- DIVU (40 R233). -/
def execDivu (v : Bool) (o : R2) (s : State P) : Out P :=
  opR2 zext6 v o divuWord s

/-- REM (40 R244). -/
def execRem (v : Bool) (o : R2) (s : State P) : Out P :=
  opR2 sext6 v o remWord s

/-- REMU (40 R246). -/
def execRemu (v : Bool) (o : R2) (s : State P) : Out P :=
  opR2 zext6 v o remuWord s

/-- REMSU (40 R248). -/
def execRemsu (v : Bool) (o : R2) (s : State P) : Out P :=
  opR2 zext6 v o remsuWord s

/-- MULSU (40 R250). -/
def execMulsu (v : Bool) (o : R2) (s : State P) : Out P :=
  opR2 zext6 v o mulsuWord s

/-- PERM (41 R271). -/
def execPerm (v : Bool) (o : R2) (s : State P) : Out P :=
  opR2 sext6 v o permWord s

/-- DIF (40 R228). -/
def execDif (v : Bool) (o : R2) (s : State P) : Out P :=
  opR2 sext6 v o difWord s

/-- MULF (40 R239). -/
def execMulf (v : Bool) (o : R2) (s : State P) : Out P :=
  opR2 zext6 v o mulfWord s

/-- MULSUH (40 R252). -/
def execMulsuh (v : Bool) (o : R2) (s : State P) : Out P :=
  opR2 zext6 v o mulsuhWord s

/-- MULUH (40 R253). -/
def execMuluh (v : Bool) (o : R2) (s : State P) : Out P :=
  opR2 zext6 v o muluhWord s

/-- CMP (40 R217). -/
def execCmp (v : Bool) (o : R2) (s : State P) : Out P :=
  opR2 sext6 v o cmp3 s

/-- SEQ (41 R275). -/
def execSeq (v : Bool) (o : R2) (s : State P) : Out P :=
  opR2 sext6 v o (fun a b => Word.ofBool (a == b)) s

/-- SNE (41 R288). -/
def execSne (v : Bool) (o : R2) (s : State P) : Out P :=
  opR2 sext6 v o (fun a b => Word.ofBool (a != b)) s

/-- MIN (40 R237). -/
def execMin (v : Bool) (o : R2) (s : State P) : Out P :=
  opR2 sext6 v o (fun a b => if ltS a b then a else b) s

/-- MAX (40 R236). -/
def execMax (v : Bool) (o : R2) (s : State P) : Out P :=
  opR2 sext6 v o (fun a b => if ltS b a then a else b) s

/-- SLT (41 R282). -/
def execSlt (v : Bool) (o : R2) (s : State P) : Out P :=
  opR2 sext6 v o (fun a b => Word.ofBool (ltS a b)) s

/-- SGE (41 R276). -/
def execSge (v : Bool) (o : R2) (s : State P) : Out P :=
  opR2 sext6 v o (fun a b => Word.ofBool (!ltS a b)) s

/-- SLTU (41 R286). -/
def execSltu (v : Bool) (o : R2) (s : State P) : Out P :=
  opR2 zext6 v o (fun a b => Word.ofBool (ltU a b)) s

/-- SGEU (41 R277). -/
def execSgeu (v : Bool) (o : R2) (s : State P) : Out P :=
  opR2 zext6 v o (fun a b => Word.ofBool (!ltU a b)) s

/-- MOR (40 R210). -/
def execMor (v : Bool) (o : R2) (s : State P) : Out P :=
  opR2 sext6 v o (matMul or) s

/-- MXOR (40 R211). -/
def execMxor (v : Bool) (o : R2) (s : State P) : Out P :=
  opR2 sext6 v o (matMul xor) s

/-- MORT (40 R212). -/
def execMort (v : Bool) (o : R2) (s : State P) : Out P :=
  opR2 sext6 v o (matMulTransposed or · · P.bmmTranspose) s

/-- MXORT (40 R213). -/
def execMxort (v : Bool) (o : R2) (s : State P) : Out P :=
  opR2 sext6 v o (matMulTransposed xor · · P.bmmTranspose) s

/-- SLL (41 R290). -/
def execSll (v : Bool) (o : R2) (s : State P) : Out P :=
  opR2 zext6 v o sllWord s

/-- SRL (41 R293). -/
def execSrl (v : Bool) (o : R2) (s : State P) : Out P :=
  opR2 zext6 v o srlWord s

/-- SRA (41 R310). -/
def execSra (v : Bool) (o : R2) (s : State P) : Out P :=
  opR2 zext6 v o sraWord s

/-- ROL (41 R311). -/
def execRol (v : Bool) (o : R2) (s : State P) : Out P :=
  opR2 zext6 v o rolWord s

/-- ROR (41 R312). -/
def execRor (v : Bool) (o : R2) (s : State P) : Out P :=
  opR2 zext6 v o rorWord s

/-- SLLI (41 R313). -/
def execSlli (v : Bool) (o : R2I) (s : State P) : Out P :=
  opR2I v o sllWord s

/-- SRLI (41 R314). -/
def execSrli (v : Bool) (o : R2I) (s : State P) : Out P :=
  opR2I v o srlWord s

/-- SRAI (41 R315). -/
def execSrai (v : Bool) (o : R2I) (s : State P) : Out P :=
  opR2I v o sraWord s

/-- ROLI (41 R316). -/
def execRoli (v : Bool) (o : R2I) (s : State P) : Out P :=
  opR2I v o rolWord s

/-- RORI (41 R317). -/
def execRori (v : Bool) (o : R2I) (s : State P) : Out P :=
  opR2I v o rorWord s

/-- MUL, with the overflow enable in bit 28 (41 R262). -/
def execMul (v : Bool) (opt : BitVec 2) (o : R2) (s : State P) : Out P :=
  opR2Trap sext6 v o
    (fun a b => if opt.extractLsb' 1 1 = 1#1 ∧ mulOverflow a b then some P.causeOvf else none)
    (fun a b => a * b) s

/-- DIV, with the overflow enable in bit 28 and the divide-by-zero enable in bit 27 (40 R226). -/
def execDiv (v : Bool) (opt : BitVec 2) (o : R2) (s : State P) : Out P :=
  opR2Trap sext6 v o
    (fun a b =>
      if b = 0#64 then (if opt.extractLsb' 0 1 = 1#1 then some P.causeDbz else none)
      else if opt.extractLsb' 1 1 = 1#1 ∧ divOverflow a b then some P.causeOvf else none)
    divWord s

/-- DIVSU, with the divide-by-zero enable in bit 27 (40 R231). -/
def execDivsu (v : Bool) (opt : BitVec 2) (o : R2) (s : State P) : Out P :=
  opR2Trap zext6 v o
    (fun _ b => if b = 0#64 ∧ opt.extractLsb' 0 1 = 1#1 then some P.causeDbz else none)
    divsuWord s

/-- MULF duplicate: raises Unimplemented (30 R134). -/
def execMulfDuplicate (_ : Bool) (_ : R2) (s : State P) : Out P :=
  .next s.unimplemented

end Sys2Proof.Machine
end

