-- ==== Sys2Proof/Machine/IntRI.lean ====
section
/-! DEFINITION. The register and immediate integer instructions, RI format (30 R107, R127, 40, 41). -/

namespace Sys2Proof.Machine

variable {P : Config.Params}

/-- ADD immediate (40 R205). -/
def execAddImmediate (v : Bool) (o : RI) (s : State P) : Out P :=
  opRI .signed v o (fun a k => a + k) s

/-- SUBF immediate (41 R296). -/
def execSubfImmediate (v : Bool) (o : RI) (s : State P) : Out P :=
  opRI .signed v o (fun a k => k - a) s

/-- MUL immediate (41 R261). -/
def execMulImmediate (v : Bool) (o : RI) (s : State P) : Out P :=
  opRI .signed v o (fun a k => a * k) s

/-- AND immediate (40 R207). -/
def execAndImmediate (v : Bool) (o : RI) (s : State P) : Out P :=
  opRI .ones v o (fun a k => a &&& k) s

/-- OR immediate (41 R267). -/
def execOrImmediate (v : Bool) (o : RI) (s : State P) : Out P :=
  opRI .zeros v o (fun a k => a ||| k) s

/-- XOR immediate (41 R305). -/
def execXorImmediate (v : Bool) (o : RI) (s : State P) : Out P :=
  opRI .zeros v o (fun a k => a ^^^ k) s

/-- MULU immediate (40 R240). -/
def execMuluImmediate (v : Bool) (o : RI) (s : State P) : Out P :=
  opRI .zeros v o (fun a k => a * k) s

/-- DIV immediate (40 R227). -/
def execDivImmediate (v : Bool) (o : RI) (s : State P) : Out P :=
  opRI .signed v o divWord s

/-- DIVU immediate (40 R232). -/
def execDivuImmediate (v : Bool) (o : RI) (s : State P) : Out P :=
  opRI .zeros v o divuWord s

/-- DIVSU immediate (40 R230). -/
def execDivsuImmediate (v : Bool) (o : RI) (s : State P) : Out P :=
  opRI .zeros v o divsuWord s

/-- MULF immediate (40 R238). -/
def execMulfImmediate (v : Bool) (o : RI) (s : State P) : Out P :=
  opRI .zeros v o mulfWord s

/-- MULSU immediate (40 R249). -/
def execMulsuImmediate (v : Bool) (o : RI) (s : State P) : Out P :=
  opRI .zeros v o mulsuWord s

/-- PERM immediate (41 R270). -/
def execPermImmediate (v : Bool) (o : RI) (s : State P) : Out P :=
  opRI .signed v o permWord s

/-- REM immediate (40 R243). -/
def execRemImmediate (v : Bool) (o : RI) (s : State P) : Out P :=
  opRI .signed v o remWord s

/-- REMU immediate (40 R245). -/
def execRemuImmediate (v : Bool) (o : RI) (s : State P) : Out P :=
  opRI .zeros v o remuWord s

/-- REMSU immediate (40 R247). -/
def execRemsuImmediate (v : Bool) (o : RI) (s : State P) : Out P :=
  opRI .zeros v o remsuWord s

/-- DIVR immediate (40 R229). -/
def execDivrImmediate (v : Bool) (o : RI) (s : State P) : Out P :=
  opRI .signed v o divrWord s

/-- SEQ immediate (41 R274). -/
def execSeqImmediate (v : Bool) (o : RI) (s : State P) : Out P :=
  opRI .signed v o (fun a k => Word.ofBool (a == k)) s

/-- SNE immediate (41 R287). -/
def execSneImmediate (v : Bool) (o : RI) (s : State P) : Out P :=
  opRI .signed v o (fun a k => Word.ofBool (a != k)) s

/-- SLT immediate (41 R281). -/
def execSltImmediate (v : Bool) (o : RI) (s : State P) : Out P :=
  opRI .signed v o (fun a k => Word.ofBool (ltS a k)) s

/-- SGT immediate (41 R278). -/
def execSgtImmediate (v : Bool) (o : RI) (s : State P) : Out P :=
  opRI .signed v o (fun a k => Word.ofBool (ltS k a)) s

/-- SLTU immediate (41 R285). -/
def execSltuImmediate (v : Bool) (o : RI) (s : State P) : Out P :=
  opRI .zeros v o (fun a k => Word.ofBool (ltU a k)) s

/-- SGTU immediate (41 R279). -/
def execSgtuImmediate (v : Bool) (o : RI) (s : State P) : Out P :=
  opRI .zeros v o (fun a k => Word.ofBool (ltU k a)) s

/-- SAND: raises Unimplemented (41 R321). -/
def execSand (_ : RI) (s : State P) : Out P :=
  .next s.unimplemented

/-- SOR: raises Unimplemented (41 R322). -/
def execSor (_ : RI) (s : State P) : Out P :=
  .next s.unimplemented

/-- SET group: raises Unimplemented (41 R323). -/
def execSetGroup (_ : Bool) (s : State P) : Out P :=
  .next s.unimplemented

end Sys2Proof.Machine
end

