-- ==== Sys2Proof/Machine/MaskOps.lean ====
section
/-! DEFINITION. The mask-register instructions, root 3Eh (47 R600 to R620). -/

namespace Sys2Proof.Machine

variable {P : Config.Params}

/-- A three-mask operation (47 R600, R601). -/
def opMask (o : MaskRRR) (f : Mask P → Mask P → Mask P) (s : State P) : Out P :=
  plainMask s (s.writeM o.t (f (s.readM o.a) (s.readM o.b))).finish

/-- A mask shift: the amount is a scalar register or a zero-extended constant, modulo VLMAX (47 R607). -/
def opMaskShift (o : MaskShift) (f : Mask P → Nat → Mask P) (s : State P) : Out P :=
  plainMask s <|
    if o.b.legal false then
      (s.writeM o.t (f (s.readM o.a) ((o.b.value zext6 s P.first).toNat % P.vlmax))).finish
    else s.unimplemented

/-- A scalar register into a mask register (47 R600). -/
def opToMask (o : ToMask) (f : Word → Mask P) (s : State P) : Out P :=
  plainMask s <|
    match o.a with
    | .x ra => (s.writeM o.t (f (s.readX ra))).finish
    | .v _ => s.unimplemented

/-- A value into a scalar target with a two-bit type code, which must be 0 (47 R600). -/
def opFromMask (tt : BitVec 2) (rt : BitVec 5) (a : Word) (s : State P) : Out P :=
  plainMask s (if tt = 0#2 then (s.writeX rt a).finish else s.unimplemented)

/-- The mask with its first `k` bits set (47 R612). -/
def fillMask (a : Word) : Mask P := BitVec.ofNat P.vlmax (2 ^ min a.toNat P.vlmax - 1)

/-- MFIRST: the lowest set bit, 128 for none (47 R614). -/
def firstBit {w : Nat} (m : BitVec w) : Word :=
  match (List.range w).find? m.getLsbD with
  | some k => BitVec.ofNat 64 k
  | none => 128#64

/-- MLAST: the highest set bit, 128 for none (47 R615). -/
def lastBit {w : Nat} (m : BitVec w) : Word :=
  if m = 0#w then 128#64 else BitVec.ofNat 64 (w - 1 - leadRun false m w)

/-- VL written: clamped to VLMAX (10 R28). -/
def clampVl (a : Word) (most : Nat := 64) : Word :=
  if most < a.toNat then BitVec.ofNat 64 most else a

/-- MAND (47 R602). -/
def execMand (o : MaskRRR) (s : State P) : Out P :=
  opMask o (fun a b => a &&& b) s

/-- MOR mask (47 R603). -/
def execMorMask (o : MaskRRR) (s : State P) : Out P :=
  opMask o (fun a b => a ||| b) s

/-- MXOR mask (47 R604). -/
def execMxorMask (o : MaskRRR) (s : State P) : Out P :=
  opMask o (fun a b => a ^^^ b) s

/-- MADD (47 R605). -/
def execMadd (o : MaskRRR) (s : State P) : Out P :=
  opMask o (fun a b => a + b) s

/-- MSUB (47 R606). -/
def execMsub (o : MaskRRR) (s : State P) : Out P :=
  opMask o (fun a b => a - b) s

/-- MNAND (47 R609). -/
def execMnand (o : MaskRRR) (s : State P) : Out P :=
  opMask o (fun a b => ~~~(a &&& b)) s

/-- MNOR (47 R610). -/
def execMnor (o : MaskRRR) (s : State P) : Out P :=
  opMask o (fun a b => ~~~(a ||| b)) s

/-- MXNOR (47 R611). -/
def execMxnor (o : MaskRRR) (s : State P) : Out P :=
  opMask o (fun a b => ~~~(a ^^^ b)) s

/-- MSLL (47 R607). -/
def execMsll (o : MaskShift) (s : State P) : Out P :=
  opMaskShift o (fun m n => m <<< n) s

/-- MSRL (47 R608). -/
def execMsrl (o : MaskShift) (s : State P) : Out P :=
  opMaskShift o (fun m n => m >>> n) s

/-- MFILL (47 R612). -/
def execMfill (o : ToMask) (s : State P) : Out P :=
  opToMask o fillMask s

/-- MTM (47 R616). -/
def execMtm (o : ToMask) (s : State P) : Out P :=
  opToMask o (·.setWidth P.vlmax) s

/-- MPOP (47 R613). -/
def execMpop (o : FromMask) (s : State P) : Out P :=
  opFromMask o.tt o.rt (BitVec.ofNat 64 (onesBelow (s.readM o.m) P.vlmax)) s

/-- MFIRST (47 R614). -/
def execMfirst (o : FromMask) (s : State P) : Out P :=
  opFromMask o.tt o.rt (firstBit (s.readM o.m)) s

/-- MLAST (47 R615). -/
def execMlast (o : FromMask) (s : State P) : Out P :=
  opFromMask o.tt o.rt (lastBit (s.readM o.m)) s

/-- MFM (47 R617). -/
def execMfm (o : FromMask) (s : State P) : Out P :=
  opFromMask o.tt o.rt ((s.readM o.m).setWidth 64) s

/-- MTVL (47 R618). -/
def execMtvl (a : RSpec) (s : State P) : Out P :=
  plainMask s <|
    match a with
    | .x ra => { s with vl := clampVl (s.readX ra) P.vlmax }.finish
    | .v _ => s.unimplemented

/-- MFVL (47 R619). -/
def execMfvl (tt : BitVec 2) (rt : BitVec 5) (s : State P) : Out P :=
  opFromMask tt rt s.vl s

end Sys2Proof.Machine
end

