-- ==== Sys2Proof/Machine/MemoryOps.lean ====
section
/-! DEFINITION. Scalar loads and stores, LDM and STM, CACHE (44 R410 to R440). -/

namespace Sys2Proof.Machine

variable {P : Config.Params}

/-- A loaded value of `n` bytes: sign- or zero-extended (44 R412). -/
def loadExt (signed : Bool) (n : Nat) (a : Word) : Word :=
  if signed then Word.sextLow (8 * n) a else Word.zextLow (8 * n) a

/-- Effective address, displacement form (44 R410). -/
def eaDisp {n : Nat} (s : State P) (base : Word) (c : BitVec n) : Word := base + s.displacement c

/-- Effective address, indexed form (44 R411). -/
def eaIndex (base index : Word) (sc : BitVec 3) : Word := base + index <<< sc.toNat

/-- A scalar load, displacement form: base and target are scalar registers (44 R410, R414). -/
def loadDisp (signed : Bool) (n : Nat) (o : LdD) (s : State P) : Out P :=
  plainOut false s <|
    match o.a, o.t with
    | .x ra, .x rt =>
      let ea := eaDisp s (s.readX ra) o.disp
      accessing s ⟨.load, [(ea, n)]⟩ (.next (s.writeX rt (loadExt signed n (s.load ea n))).finish)
    | _, _ => .next s.unimplemented

/-- A scalar load, indexed form; a constant index is sign-extended (44 R411). -/
def loadIndexed (signed : Bool) (n : Nat) (o : LdX) (s : State P) : Out P :=
  plainOut false s <|
    match o.a, o.t with
    | .x ra, .x rt =>
      if o.b.legal false then
        let ea := eaIndex (s.readX ra) (o.b.value sext6 s P.first) o.sc
        accessing s ⟨.load, [(ea, n)]⟩ (.next (s.writeX rt (loadExt signed n (s.load ea n))).finish)
      else .next s.unimplemented
    | _, _ => .next s.unimplemented

/-- A way of storing a value at an address: what it stores to, from the address on, and what it does. -/
structure Put (P : Config.Params := Config.default) where
  items : Word → List (Word × Nat)
  run : Word → Word → State P → State P

/-- A scalar store, displacement form; a constant value is zero-extended (44 R410, R414). -/
def storeDisp (put : Put P) (o : StD) (s : State P) : Out P :=
  plainOut false s <|
    match o.a with
    | .x ra =>
      if o.b.legal false then
        let ea := eaDisp s (s.readX ra) o.disp
        accessing s ⟨.store, put.items ea⟩ (.next (put.run ea (o.b.value zext6 s P.first) s).finish)
      else .next s.unimplemented
    | .v _ => .next s.unimplemented

/-- A scalar store, indexed form: the index is IMOD's C (44 R411). -/
def storeIndexed (put : Put P) (o : StX) (s : State P) : Out P :=
  plainOut false s <|
    match o.a with
    | .x ra =>
      if o.b.legal false then
        let ea := eaIndex (s.readX ra) (optValue sext6 s P.first s.specC) o.sc
        accessing s ⟨.store, put.items ea⟩ (.next (put.run ea (o.b.value zext6 s P.first) s).finish)
      else .next s.unimplemented
    | .v _ => .next s.unimplemented

/-- The plain store of `n` bytes. -/
def putBytes (n : Nat) : Put P := { items := fun ea => [(ea, n)], run := fun ea b s => s.store ea n b }

/-- The zero bytes of STPTR, which began in the state `u`: while the address is not 0 it is shifted right by eight and a
zero byte is stored there (44 R435). Eight rounds bring any address to 0. -/
def cardMarks (u s : State P) (ea : Word) (fuel : Nat) : State P :=
  match fuel with
  | 0 => s
  | k + 1 => if ea = 0#64 then s else cardMarks u (s.storeFrom u (ea >>> 8) 1 0#64) (ea >>> 8) k

/-- Where those bytes stand. -/
def cardItems (ea : Word) (fuel : Nat) : List (Word × Nat) :=
  match fuel with
  | 0 => []
  | k + 1 => if ea = 0#64 then [] else (ea >>> 8, 1) :: cardItems (ea >>> 8) k

/-- STPTR's store (44 R435). -/
def putPointer : Put P :=
  { items := fun ea => (ea, 8) :: cardItems ea 8, run := fun ea b s => cardMarks s (s.store ea 8 b) ea 8 }

/-- The registers REGLIST selects, in ascending order; none without the word (44 R437). -/
def State.listed (s : State P) : List (BitVec 5) :=
  match s.mods.reglist with
  | none => []
  | some l => (List.range 30).filterMap fun k => if l.getLsbD k then some (BitVec.ofNat 5 (k + 1)) else none

/-- The octas at `ea` that LDM and STM access, one for each listed register. -/
def State.listItems (s : State P) (ea : Word) : List (Word × Nat) :=
  (List.range s.listed.length).map fun k => (ea + BitVec.ofNat 64 (8 * k), 8)

/-- STM from `ea`: ascending registers at ascending addresses (44 R437). -/
def storeMany (ea : Word) (s : State P) : State P :=
  s.listed.zipIdx.foldl (fun t p => t.storeFrom s (ea + BitVec.ofNat 64 (8 * p.2)) 8 (s.readX p.1)) s

/-- LDM from `ea` (44 R438). -/
def loadMany (ea : Word) (s : State P) : State P :=
  s.listed.zipIdx.foldl (fun t p => t.writeX p.1 (s.load (ea + BitVec.ofNat 64 (8 * p.2)) 8)) s

/-- The fetch view after one line is refreshed: `n` bytes from `base` on (70 R790). -/
def refreshLine (mem imem : List Host.Cell) (base n : Nat) : List Host.Cell :=
  match n with
  | 0 => imem
  | k + 1 => sparseSet (refreshLine mem imem base k) (base + k) (sparseGet mem (base + k))

/-- The instruction-cache command: 1 the line of the address, 2 everything (44 R440, 70 R790). DESIGN CHOICE (log 10),
for TRANSLATE and MEM_RANGE other than the defaults: the address of the line goes through TRANSLATE as a fetch does;
where that faults nothing is raised and the address itself is used; MEM_RANGE is not asked. -/
def cacheInstr (ic : BitVec 2) (ea : Word) (s : State P) : State P :=
  match ic.toNat with
  | 1 =>
    let a := (physical s ea .fetch).toNat
    { s with imem := refreshLine s.mem s.imem (a - a % P.icacheLine) P.icacheLine }
  | 2 => { s with imem := s.mem }
  | _ => s

/-- The data-cache command: 1 enables and 2 disables the cache, which is transparent (10 R45, 44 R440). -/
def cacheData (dc : BitVec 3) (s : State P) : State P :=
  match dc.toNat with
  | 1 => { s with dcacheEnable := true }
  | 2 => { s with dcacheEnable := false }
  | _ => s

/-- LDB (44 R415). -/
def execLdb (o : LdD) (s : State P) : Out P :=
  loadDisp true 1 o s

/-- LDB indexed (44 R416). -/
def execLdbIndexed (o : LdX) (s : State P) : Out P :=
  loadIndexed true 1 o s

/-- LDBZ (44 R417). -/
def execLdbz (o : LdD) (s : State P) : Out P :=
  loadDisp false 1 o s

/-- LDBZ indexed (44 R418). -/
def execLdbzIndexed (o : LdX) (s : State P) : Out P :=
  loadIndexed false 1 o s

/-- LDW (44 R419). -/
def execLdw (o : LdD) (s : State P) : Out P :=
  loadDisp true 2 o s

/-- LDW indexed (44 R420). -/
def execLdwIndexed (o : LdX) (s : State P) : Out P :=
  loadIndexed true 2 o s

/-- LDWZ (44 R421). -/
def execLdwz (o : LdD) (s : State P) : Out P :=
  loadDisp false 2 o s

/-- LDWZ indexed (44 R422). -/
def execLdwzIndexed (o : LdX) (s : State P) : Out P :=
  loadIndexed false 2 o s

/-- LDT (44 R423). -/
def execLdt (o : LdD) (s : State P) : Out P :=
  loadDisp true 4 o s

/-- LDT indexed (44 R424). -/
def execLdtIndexed (o : LdX) (s : State P) : Out P :=
  loadIndexed true 4 o s

/-- LDTZ (44 R425). -/
def execLdtz (o : LdD) (s : State P) : Out P :=
  loadDisp false 4 o s

/-- LDTZ indexed (44 R426). -/
def execLdtzIndexed (o : LdX) (s : State P) : Out P :=
  loadIndexed false 4 o s

/-- LDO (44 R427). -/
def execLdo (o : LdD) (s : State P) : Out P :=
  loadDisp true 8 o s

/-- LDO indexed (44 R428). -/
def execLdoIndexed (o : LdX) (s : State P) : Out P :=
  loadIndexed true 8 o s

/-- LDO opcode 64h (44 R427). -/
def execLdoAt64h (o : LdD) (s : State P) : Out P :=
  loadDisp false 8 o s

/-- LDO indexed opcode 65h (44 R428). -/
def execLdoIndexedAt65h (o : LdX) (s : State P) : Out P :=
  loadIndexed false 8 o s

/-- LDPTR 60h (44 R429). -/
def execLdptrAt60h (o : LdD) (s : State P) : Out P :=
  loadDisp true 8 o s

/-- LDPTR 61h (44 R429). -/
def execLdptrAt61h (o : LdX) (s : State P) : Out P :=
  loadIndexed true 8 o s

/-- LDPTR 64h (44 R429). -/
def execLdptrAt64h (o : LdD) (s : State P) : Out P :=
  loadDisp false 8 o s

/-- LDPTR 65h (44 R429). -/
def execLdptrAt65h (o : LdX) (s : State P) : Out P :=
  loadIndexed false 8 o s

/-- load Func4 4 60h: raises Unimplemented (44 R413). -/
def execLoadFunc4Is4At60h (_ : LdD) (s : State P) : Out P :=
  .next s.unimplemented

/-- load Func4 5 60h: raises Unimplemented (44 R413). -/
def execLoadFunc4Is5At60h (_ : LdD) (s : State P) : Out P :=
  .next s.unimplemented

/-- load Func4 4 61h: raises Unimplemented (44 R413). -/
def execLoadFunc4Is4At61h (_ : LdX) (s : State P) : Out P :=
  .next s.unimplemented

/-- load Func4 5 61h: raises Unimplemented (44 R413). -/
def execLoadFunc4Is5At61h (_ : LdX) (s : State P) : Out P :=
  .next s.unimplemented

/-- load Func4 4 64h: raises Unimplemented (44 R413). -/
def execLoadFunc4Is4At64h (_ : LdD) (s : State P) : Out P :=
  .next s.unimplemented

/-- load Func4 5 64h: raises Unimplemented (44 R413). -/
def execLoadFunc4Is5At64h (_ : LdD) (s : State P) : Out P :=
  .next s.unimplemented

/-- load Func4 4 65h: raises Unimplemented (44 R413). -/
def execLoadFunc4Is4At65h (_ : LdX) (s : State P) : Out P :=
  .next s.unimplemented

/-- load Func4 5 65h: raises Unimplemented (44 R413). -/
def execLoadFunc4Is5At65h (_ : LdX) (s : State P) : Out P :=
  .next s.unimplemented

/-- Func4 0Dh 64h: raises Unimplemented (44 R438). -/
def execLoadFunc4Is13At64h (_ : LdD) (s : State P) : Out P :=
  .next s.unimplemented

/-- Func4 0Dh 65h: raises Unimplemented (44 R438). -/
def execLoadFunc4Is13At65h (_ : LdX) (s : State P) : Out P :=
  .next s.unimplemented

/-- STB (44 R431). -/
def execStb (o : StD) (s : State P) : Out P :=
  storeDisp (putBytes 1) o s

/-- STB indexed (44 R431). -/
def execStbIndexed (o : StX) (s : State P) : Out P :=
  storeIndexed (putBytes 1) o s

/-- STW (44 R432). -/
def execStw (o : StD) (s : State P) : Out P :=
  storeDisp (putBytes 2) o s

/-- STW indexed (44 R432). -/
def execStwIndexed (o : StX) (s : State P) : Out P :=
  storeIndexed (putBytes 2) o s

/-- STT (44 R433). -/
def execStt (o : StD) (s : State P) : Out P :=
  storeDisp (putBytes 4) o s

/-- STT indexed (44 R433). -/
def execSttIndexed (o : StX) (s : State P) : Out P :=
  storeIndexed (putBytes 4) o s

/-- STO (44 R434). -/
def execSto (o : StD) (s : State P) : Out P :=
  storeDisp (putBytes 8) o s

/-- STO indexed (44 R434). -/
def execStoIndexed (o : StX) (s : State P) : Out P :=
  storeIndexed (putBytes 8) o s

/-- STPTR (44 R435). -/
def execStptr (o : StD) (s : State P) : Out P :=
  storeDisp putPointer o s

/-- STPTR indexed (44 R435). -/
def execStptrIndexed (o : StX) (s : State P) : Out P :=
  storeIndexed putPointer o s

/-- LEA, where LEA_ENCODING gives it an opcode: Rt gets the indexed effective address, and no memory is accessed
(44 R430). -/
def execLea (o : LdX) (s : State P) : Out P :=
  plain false s <|
    match o.a, o.t with
    | .x ra, .x rt =>
      if o.b.legal false then (s.writeX rt (eaIndex (s.readX ra) (o.b.value sext6 s P.first) o.sc)).finish
      else s.unimplemented
    | _, _ => s.unimplemented

/-- The plain store of `n` bytes after which the register stored, if it is one, is 0 (44 R436). -/
def putThenZero (n : Nat) (b : OSpec) : Put P :=
  { items := fun ea => [(ea, n)]
    run := fun ea w s =>
      match b with
      | .x r => (s.store ea n w).writeX r 0#64
      | _ => s.store ea n w }

/-- STBZ, STWZ, STTZ and STOZ, where STZ_ENCODING gives them an opcode: the store of the displacement format by
Func4, and then the register stored is 0 (44 R436; log 10). -/
def execStoreZero (func4 : BitVec 4) (o : StD) (s : State P) : Out P :=
  match func4.toNat with
  | 0 => storeDisp (putThenZero 1 o.b) o s
  | 1 => storeDisp (putThenZero 2 o.b) o s
  | 2 => storeDisp (putThenZero 4 o.b) o s
  | 3 => storeDisp (putThenZero 8 o.b) o s
  | _ => .next s.unimplemented

/-- LDM, displacement form; the Rt field is not used (44 R438; log 17). -/
def execLdmAt60h (o : LdD) (s : State P) : Out P :=
  plainOut false s <|
    match o.a with
    | .x ra =>
      let ea := eaDisp s (s.readX ra) o.disp
      accessing s ⟨.load, s.listItems ea⟩ (.next (loadMany ea s).finish)
    | .v _ => .next s.unimplemented

/-- LDM, indexed form; the Rt field is not used (44 R438; log 17). -/
def execLdmAt61h (o : LdX) (s : State P) : Out P :=
  plainOut false s <|
    match o.a with
    | .x ra =>
      if o.b.legal false then
        let ea := eaIndex (s.readX ra) (o.b.value sext6 s P.first) o.sc
        accessing s ⟨.load, s.listItems ea⟩ (.next (loadMany ea s).finish)
      else .next s.unimplemented
    | .v _ => .next s.unimplemented

/-- STM, displacement form; the Rb field is not used (44 R437; log 17). -/
def execStm (o : StD) (s : State P) : Out P :=
  plainOut false s <|
    match o.a with
    | .x ra =>
      let ea := eaDisp s (s.readX ra) o.disp
      accessing s ⟨.store, s.listItems ea⟩ (.next (storeMany ea s).finish)
    | .v _ => .next s.unimplemented

/-- STM, indexed form; the Rb field is not used (44 R437; log 17). -/
def execStmIndexed (o : StX) (s : State P) : Out P :=
  plainOut false s <|
    match o.a with
    | .x ra =>
      let ea := eaIndex (s.readX ra) (optValue sext6 s P.first s.specC) o.sc
      accessing s ⟨.store, s.listItems ea⟩ (.next (storeMany ea s).finish)
    | .v _ => .next s.unimplemented

/-- CACHE (44 R440). -/
def execCache (o : CacheOps) (s : State P) : Out P :=
  plain false s <|
    match o.a with
    | .x ra =>
      if o.ic = 3#2 ∨ 5 ≤ o.dc.toNat then s.unimplemented
      else (cacheData o.dc (cacheInstr o.ic (eaDisp s (s.readX ra) o.disp) s)).finish
    | .v _ => s.unimplemented

end Sys2Proof.Machine
end

