-- ==== Sys2Proof/Machine/Stack.lean ====
section
/-! DEFINITION. PUSH, POP, LINK and UNLINK (44 R447 to R452). Type codes other than scalar raise Unimplemented (30 R118). -/

namespace Sys2Proof.Machine

variable {P : Config.Params}

/-- PUSH of one register; of its Rb field only the type code is checked (44 R447, 30 R130; log 17). -/
def execPush (o : R2) (s : State P) : Out P :=
  plainOut false s <|
    match o.b.legal false, o.a, o.t with
    | true, .x ra, .x sp =>
      let t := s.writeX sp (s.readX sp - 8#64)
      accessing s ⟨.store, [(t.readX sp, 8)]⟩ (.next (t.storeFrom s (t.readX sp) 8 (s.readX ra)).finish)
    | _, _, _ => .next s.unimplemented

/-- PUSH pair (44 R448). -/
def execPushPair (o : R2) (s : State P) : Out P :=
  plainOut false s <|
    match o.b, o.a, o.t with
    | .x rb, .x ra, .x sp =>
      let t := s.writeX sp (s.readX sp - 16#64)
      accessing s ⟨.store, [(t.readX sp, 8), (t.readX sp + 8#64, 8)]⟩
        (.next ((t.storeFrom s (t.readX sp) 8 (s.readX rb)).storeFrom s (t.readX sp + 8#64) 8 (s.readX ra)).finish)
    | _, _, _ => .next s.unimplemented

/-- POP of one register: the loaded value wins over the new stack pointer; of its Rb field only the type code
is checked (44 R449, 30 R130; log 17). -/
def execPop (o : R2) (s : State P) : Out P :=
  plainOut false s <|
    match o.b.legal false, o.a, o.t with
    | true, .x ra, .x sp =>
      accessing s ⟨.load, [(s.readX sp, 8)]⟩
        (.next ((s.writeX sp (s.readX sp + 8#64)).writeX ra (s.load (s.readX sp) 8)).finish)
    | _, _, _ => .next s.unimplemented

/-- POP of a pair, in the printed order: the stack pointer is written last (44 R450). -/
def execPopPair (o : R2) (s : State P) : Out P :=
  plainOut false s <|
    match o.b, o.a, o.t with
    | .x rb, .x ra, .x sp =>
      let p := s.readX sp
      accessing s ⟨.load, [(p, 8), (p + 8#64, 8)]⟩
        (.next (((s.writeX rb (s.load p 8)).writeX ra (s.load (p + 8#64) 8)).writeX sp (p + 16#64)).finish)
    | _, _, _ => .next s.unimplemented

/-- LINK: the constant is zero-extended and takes no EXI word (44 R451). -/
def execLink (o : RI) (s : State P) : Out P :=
  plainOut false s <|
    match o.a, o.t with
    | .x fp, .x sp =>
      let t := s.writeX sp (s.readX sp - 8#64)
      let u := (t.storeFrom s (t.readX sp) 8 (s.readX fp)).writeX fp (t.readX sp)
      accessing s ⟨.store, [(t.readX sp, 8)]⟩ (.next (u.writeX sp (u.readX sp - o.imm.setWidth 64)).finish)
    | _, _ => .next s.unimplemented

/-- UNLINK (44 R452). -/
def execUnlink (o : Two) (s : State P) : Out P :=
  plainOut false s <|
    match o.a, o.t with
    | .x fp, .x sp =>
      let t := s.writeX sp (s.readX fp)
      accessing s ⟨.load, [(t.readX sp, 8)]⟩
        (.next ((t.writeX fp (s.load (t.readX sp) 8)).writeX sp (t.readX sp + 8#64)).finish)
    | _, _ => .next s.unimplemented

end Sys2Proof.Machine
end

