-- ==== Sys2Proof/Machine/VectorOps.lean ====
section
/-! DEFINITION. The vector instructions whose loop is their own (47 R625 to R634). -/

namespace Sys2Proof.Machine

variable {P : Config.Params}

/-- The active elements below VL, in ascending order. -/
def State.activeList (s : State P) (m : Mask P) : List (Fin P.vlmax) := (List.finRange P.vlmax).filter (s.active m)

/-- A compressed vector: the values fill the target from element 0; the rest below VL is zeroed or
kept (47 R628). -/
def State.fillFrom (s : State P) (z : Bool) (old : VReg P) (vals : List Word) : VReg P :=
  Vector.ofFn fun e =>
    if e.val < vals.length then vals.getD e.val 0#64
    else if e.val < s.vl.toNat then (if z then 0#64 else old[e]) else old[e]

/-- A slide: element `x` from element `src x` of the source, 0 where there is none; elements from VL on
are kept (47 R631, R632). -/
def slide (o : R2) (src : Nat → Nat → Nat → Option Nat) (s : State P) : Out P :=
  plain true s <|
    match o.a, o.t with
    | .v ra, .v rt =>
      match o.b with
      | .v _ => s.unimplemented
      | b =>
        let amt := (b.value zext6 s P.first).toNat
        (s.writeV rt (s.merge (BitVec.allOnes P.vlmax) false P.vlmax (s.readV rt) fun e =>
          match src s.vl.toNat amt e.val with
          | some k => (s.readV ra).toList.getD k 0#64
          | none => 0#64)).finish
    | _, _ => s.unimplemented

/-- V2BITS (47 R626). -/
def execV2bits (o : R1) (s : State P) : Out P :=
  plain true s <|
    match o.a, o.t with
    | .v ra, .x rt =>
      let old := s.readX rt
      let m := s.readM o.m
      (s.writeX rt (wordOfBits (fun k =>
        if k < s.vl.toNat then
          if m.getLsbD k then ((s.readV ra).toList.getD k 0#64).getLsbD 0 else if o.z then false else old.getLsbD k
        else old.getLsbD k) 64)).finish
    | _, _ => s.unimplemented

/-- BITS2V (47 R627). -/
def execBits2v (o : R1) (s : State P) : Out P :=
  plain true s <|
    match o.a, o.t with
    | .x ra, .v rt =>
      (s.writeV rt (s.merge (s.readM o.m) o.z P.vlmax (s.readV rt) fun e =>
        Word.ofBool ((s.readX ra).getLsbD e.val))).finish
    | _, _ => s.unimplemented

/-- VCMPRSS (47 R629). -/
def execVcmprss (o : R1) (s : State P) : Out P :=
  plain true s <|
    match o.a, o.t with
    | .v ra, .v rt =>
      (s.writeV rt (s.fillFrom o.z (s.readV rt) ((s.activeList (s.readM o.m)).map fun e => (s.readV ra)[e]))).finish
    | _, _ => s.unimplemented

/-- VCIDX (47 R628). -/
def execVcidx (o : R1) (s : State P) : Out P :=
  plain true s <|
    match o.t with
    | .v rt =>
      (s.writeV rt (s.fillFrom o.z (s.readV rt)
        ((s.activeList (s.readM o.m)).map fun e => o.a.value s e * BitVec.ofNat 64 e.val))).finish
    | .x _ => s.unimplemented

/-- VSCAN: the exclusive running sum over active elements; z has no effect (47 R630). -/
def execVscan (o : R1) (s : State P) : Out P :=
  plain true s <|
    match o.t with
    | .v rt =>
      (s.writeV rt (s.merge (BitVec.allOnes P.vlmax) false P.vlmax (s.readV rt) fun e =>
        ((s.activeList (s.readM o.m)).filter (fun k => decide (k.val < e.val))).foldl
          (fun sum k => sum + o.a.value s k) 0#64)).finish
    | .x _ => s.unimplemented

/-- VSLLV (47 R631). -/
def execVsllv (o : R2) (s : State P) : Out P :=
  slide o (fun _ amt x => if amt ≤ x then some (x - amt) else none) s

/-- VSRLV (47 R632). -/
def execVsrlv (o : R2) (s : State P) : Out P :=
  slide o (fun vl amt x => if x + amt < vl then some (x + amt) else none) s

/-- VEX (47 R633). -/
def execVex (o : R2) (s : State P) : Out P :=
  plain true s <|
    match o.b, o.a, o.t with
    | .v rb, .x ra, .x rt =>
      (s.writeX rt ((s.readV rb)[(s.readX ra).toNat % P.vlmax]'(Nat.mod_lt _ P.vlmax_pos))).finish
    | _, _, _ => s.unimplemented

/-- VEINS (47 R634). -/
def execVeins (o : R2) (s : State P) : Out P :=
  plain true s <|
    match o.a, o.t with
    | .x ra, .v rt =>
      if o.b.legal false then
        (s.writeV rt ((s.readV rt).set ((s.readX ra).toNat % P.vlmax) (o.b.value sext6 s P.first)
          (Nat.mod_lt _ P.vlmax_pos))).finish
      else s.unimplemented
    | _, _ => s.unimplemented

end Sys2Proof.Machine
end

