-- ==== Sys2Proof/Machine/VectorMemory.lean ====
section
/-! DEFINITION. Vector loads and stores, plain and compressed (44 R441 to R445, 47 R640 to R644). -/

namespace Sys2Proof.Machine

variable {P : Config.Params}

/-- The element size Func4 selects (20 R78); the other values raise Unimplemented (44 R413). -/
def elementSize (f4 : BitVec 4) : Option Nat :=
  match f4.toNat with
  | 0 => some 1
  | 1 => some 2
  | 2 => some 4
  | 3 => some 8
  | 7 => some 8
  | _ => none

/-- The stride: STRIDE's Rc, a scalar register or a sign-extended constant; 0 without the word; `none`
for a vector register (44 R441, R442). DEDUCED (log 24): the constant of the compressed forms is sign-extended as 47 R641
says by 30 R104, although 91_not_in_source.md has the spec follow D0's word `unsigned` there. -/
def State.strideValue (s : State P) : Option Word :=
  match s.mods.stride with
  | none => some 0#64
  | some t =>
    match t.c with
    | .x r => some (s.readX r)
    | .imm c => some (sext6 c)
    | .v _ => none

/-- The index vector: STRIDE's Rc, which must be a vector register; zeros without the word (44 R441,
R443). -/
def State.strideIndex (s : State P) : Option (VReg P) :=
  match s.mods.stride with
  | none => some (Vector.replicate P.vlmax 0#64)
  | some t =>
    match t.c with
    | .v r => some (s.readV r)
    | _ => none

/-- A vector load: scalar base, vector target, an element size; `body` gets the size, the base address
with the displacement, and the target's number (44 R441). -/
def vload (f4 : BitVec 4) (o : LdD) (body : Nat → Word → BitVec 5 → Out P) (s : State P) : Out P :=
  plainOut true s <|
    match elementSize f4, o.a, o.t with
    | some n, .x ra, .v rt => body n (eaDisp s (s.readX ra) o.disp) rt
    | _, _, _ => .next s.unimplemented

/-- A vector store: scalar base, vector register stored (44 R441). -/
def vstore (f4 : BitVec 4) (o : StD) (body : Nat → Word → BitVec 5 → Out P) (s : State P) : Out P :=
  plainOut true s <|
    match elementSize f4, o.a, o.b with
    | some n, .x ra, .v rb => body n (eaDisp s (s.readX ra) o.disp) rb
    | _, _, _ => .next s.unimplemented

/-- LDSx and LDxVX from the address of each element: z selects zero extension for an active element and
zeroing for an inactive one (44 R442, R443). -/
def loadElements (n : Nat) (ea : Fin P.vlmax → Word) (rt : BitVec 5) (s : State P) : Out P :=
  let mz := s.strideMask
  accessing s ⟨.load, (s.activeList mz.1).map fun e => (ea e, n)⟩
    (.next (s.writeV rt (s.merge mz.1 mz.2 P.vlmax (s.readV rt) fun e => loadExt (!mz.2) n (s.load (ea e) n))).finish)

/-- STSx and STxVX: elements in ascending order; an inactive one stores 0 under z (44 R444, R445). -/
def storeElements (n : Nat) (ea : Fin P.vlmax → Word) (rb : BitVec 5) (s : State P) : Out P :=
  let mz := s.strideMask
  accessing s ⟨.store, (s.activeList (if mz.2 then BitVec.allOnes P.vlmax else mz.1)).map fun e => (ea e, n)⟩
    (.next ((List.finRange P.vlmax).foldl (fun t e =>
      if e.val < s.vl.toNat then
        if mz.1.getLsbD e.val then t.storeFrom s (ea e) n (s.readV rb)[e]
        else if mz.2 then t.storeFrom s (ea e) n 0#64 else t
      else t) s).finish)

/-- CVLDSx and CVLDxVX: the y-th active element is read at `ea e y` and the values fill the target from
element 0 (47 R641, R642). -/
def loadCompressed (n : Nat) (ea : Fin P.vlmax → Nat → Word) (rt : BitVec 5) (s : State P) : Out P :=
  let mz := s.strideMask
  let vals := (s.activeList mz.1).zipIdx.map fun p => loadExt (!mz.2) n (s.load (ea p.1 p.2) n)
  accessing s ⟨.load, (s.activeList mz.1).zipIdx.map fun p => (ea p.1 p.2, n)⟩
    (.next (s.writeV rt (s.fillFrom mz.2 (s.readV rt) vals)).finish)

/-- CVSTSx and CVSTxVX: the y-th active element is stored at `ea e y`; under z each stored element is
then cleared in the source (47 R643, R644). -/
def storeCompressed (n : Nat) (ea : Fin P.vlmax → Nat → Word) (rb : BitVec 5) (s : State P) : Out P :=
  let mz := s.strideMask
  let t := (s.activeList mz.1).zipIdx.foldl (fun t p => t.storeFrom s (ea p.1 p.2) n (s.readV rb)[p.1]) s
  accessing s ⟨.store, (s.activeList mz.1).zipIdx.map fun p => (ea p.1 p.2, n)⟩
    (.next
      (if mz.2 then t.writeV rb (Vector.ofFn fun e => if s.active mz.1 e then 0#64 else (s.readV rb)[e]) else t).finish)

/-- Run `body` on the stride, or raise Unimplemented. -/
def withStride (s : State P) (body : Word → Out P) : Out P :=
  match s.strideValue with
  | some c => body c
  | none => .next s.unimplemented

/-- Run `body` on the index vector, or raise Unimplemented. -/
def withIndex (s : State P) (body : VReg P → Out P) : Out P :=
  match s.strideIndex with
  | some c => body c
  | none => .next s.unimplemented

/-- LDSx (44 R442). -/
def execLdsx (f4 : BitVec 4) (o : LdD) (s : State P) : Out P :=
  vload f4 o (fun n base r => withStride s fun c => loadElements n (fun e => base + c * BitVec.ofNat 64 e.val) r s) s

/-- LDxVX (44 R443). -/
def execLdxvx (f4 : BitVec 4) (o : LdD) (s : State P) : Out P :=
  vload f4 o (fun n base r => withIndex s fun idx => loadElements n (fun e => base + idx[e]) r s) s

/-- STSx (44 R444). -/
def execStsx (f4 : BitVec 4) (o : StD) (s : State P) : Out P :=
  vstore f4 o (fun n base r => withStride s fun c => storeElements n (fun e => base + c * BitVec.ofNat 64 e.val) r s) s

/-- STxVX (44 R445). -/
def execStxvx (f4 : BitVec 4) (o : StD) (s : State P) : Out P :=
  vstore f4 o (fun n base r => withIndex s fun idx => storeElements n (fun e => base + idx[e]) r s) s

/-- CVLDSx (47 R641). -/
def execCvldsx (f4 : BitVec 4) (o : LdD) (s : State P) : Out P :=
  vload f4 o (fun n base r => withStride s fun c => loadCompressed n (fun _ y => base + c * BitVec.ofNat 64 y) r s) s

/-- CVLDxVX (47 R642). -/
def execCvldxvx (f4 : BitVec 4) (o : LdD) (s : State P) : Out P :=
  vload f4 o (fun n base r => withIndex s fun idx => loadCompressed n (fun e _ => base + idx[e]) r s) s

/-- CVSTSx (47 R643). -/
def execCvstsx (f4 : BitVec 4) (o : StD) (s : State P) : Out P :=
  vstore f4 o (fun n base r => withStride s fun c => storeCompressed n (fun _ y => base + c * BitVec.ofNat 64 y) r s) s

/-- CVSTxVX (47 R644). -/
def execCvstxvx (f4 : BitVec 4) (o : StD) (s : State P) : Out P :=
  vstore f4 o (fun n base r => withIndex s fun idx => storeCompressed n (fun _ y => base + idx.toList.getD y 0#64) r s) s

end Sys2Proof.Machine
end

