-- ==== Sys2Proof/Machine/Inner.lean ====
section
/-! DEFINITION. EXEC and MYST (46 R550 to R552), the instructions that run a word held in a register,
and the dispatch of such a word. `runRoot` follows the opcode maps arm by arm as `decodeRoot` does and
calls the meaning at once; `Laws/Inner.lean` proves that it does what decoding the word and running the
instruction does. It stands beside the decoder because `exec` is compiled, and compiled code cannot
build an object of a constructor past the 245th. -/

namespace Sys2Proof.Machine

variable {P : Config.Params}

/-! ### The words EXEC may run

A modifier, EXEC, MYST and the compressed page raise Unimplemented (46 R550), as blank cells do. -/

/-- R1, root 01h (30 R133): the rows by func7. -/
def runR1 (func : Nat) (v : Bool) (w : BitVec 36) (s : State P) : Out P :=
  match func with
  | 0x00 => execCntlz (vBit w) (R1.dec w) s
  | 0x01 => execCntlo (vBit w) (R1.dec w) s
  | 0x02 => execCntpop (vBit w) (R1.dec w) s
  | 0x03 => execCom (vBit w) (R1.dec w) s
  | 0x04 => execNot (vBit w) (R1.dec w) s
  | 0x05 => execNeg (vBit w) (R1.dec w) s
  | 0x06 => execAbs (vBit w) (R1.dec w) s
  | 0x07 => execNabs (vBit w) (R1.dec w) s
  | 0x08 => execSqrt (vBit w) (R1.dec w) s
  | 0x0b => execTst (vBit w) (R1.dec w) s
  | 0x0c => execZxb (vBit w) (R1.dec w) s
  | 0x0d => execZxw (vBit w) (R1.dec w) s
  | 0x0e => execZxt (vBit w) (R1.dec w) s
  | 0x10 => execPtrinc (vBit w) (R1.dec w) s
  | 0x11 => execTransform (vBit w) (R1.dec w) s
  | 0x14 => execSxb (vBit w) (R1.dec w) s
  | 0x15 => execSxw (vBit w) (R1.dec w) s
  | 0x16 => execSxt (vBit w) (R1.dec w) s
  | 0x18 => if v then execV2bits (R1.dec w) s else .next s.unimplemented
  | 0x19 => if v then execBits2v (R1.dec w) s else .next s.unimplemented
  | 0x1c => if v then execVcmprss (R1.dec w) s else .next s.unimplemented
  | 0x1d => if v then execVcidx (R1.dec w) s else .next s.unimplemented
  | 0x1e => if v then execVscan (R1.dec w) s else .next s.unimplemented
  | 0x20 => execClip (vBit w) (R1.dec w) s
  | _ => .next s.unimplemented

/-- R2, root 02h (30 R134): the rows by func7. -/
def runR2 (func : Nat) (v : Bool) (w : BitVec 36) (s : State P) : Out P :=
  match func with
  | 0x00 => execAnd (vBit w) (R2.dec w) s
  | 0x01 => execOr (vBit w) (R2.dec w) s
  | 0x02 => execXor (vBit w) (R2.dec w) s
  | 0x04 => execAdd (vBit w) (R2.dec w) s
  | 0x05 => execSub (vBit w) (R2.dec w) s
  | 0x06 => execMul (vBit w) (w.extractLsb' 27 2) (R2.dec w) s
  | 0x08 => execNand (vBit w) (R2.dec w) s
  | 0x09 => execNor (vBit w) (R2.dec w) s
  | 0x0a => execXnor (vBit w) (R2.dec w) s
  | 0x0d => execMulfDuplicate (vBit w) (R2.dec w) s
  | 0x0e => execMulu (vBit w) (R2.dec w) s
  | 0x0f => execMulh (vBit w) (R2.dec w) s
  | 0x10 => execDiv (vBit w) (w.extractLsb' 27 2) (R2.dec w) s
  | 0x11 => execDivu (vBit w) (R2.dec w) s
  | 0x12 => execDivsu (vBit w) (w.extractLsb' 27 2) (R2.dec w) s
  | 0x13 => execRem (vBit w) (R2.dec w) s
  | 0x14 => execRemu (vBit w) (R2.dec w) s
  | 0x15 => execRemsu (vBit w) (R2.dec w) s
  | 0x16 => execMulsu (vBit w) (R2.dec w) s
  | 0x17 => execPerm (vBit w) (R2.dec w) s
  | 0x18 => execDif (vBit w) (R2.dec w) s
  | 0x1b => execWydndx (vBit w) (R2.dec w) s
  | 0x1c => execMulf (vBit w) (R2.dec w) s
  | 0x1d => execMulsuh (vBit w) (R2.dec w) s
  | 0x1e => execMuluh (vBit w) (R2.dec w) s
  | 0x1f => .next s.unimplemented
  | 0x20 => execCmp (vBit w) (R2.dec w) s
  | 0x23 => execU21ndx (vBit w) (R2.dec w) s
  | 0x26 => execSeq (vBit w) (R2.dec w) s
  | 0x27 => execSne (vBit w) (R2.dec w) s
  | 0x28 => execMin (vBit w) (R2.dec w) s
  | 0x29 => execMax (vBit w) (R2.dec w) s
  | 0x2c => execSlt (vBit w) (R2.dec w) s
  | 0x2d => execSge (vBit w) (R2.dec w) s
  | 0x2e => execSltu (vBit w) (R2.dec w) s
  | 0x2f => execSgeu (vBit w) (R2.dec w) s
  | 0x30 => execMor (vBit w) (R2.dec w) s
  | 0x31 => execMxor (vBit w) (R2.dec w) s
  | 0x32 => execMort (vBit w) (R2.dec w) s
  | 0x33 => execMxort (vBit w) (R2.dec w) s
  | 0x34 => execPlot (vBit w) (R2.dec w) s
  | 0x38 => if v then execVsllv (R2.dec w) s else .next s.unimplemented
  | 0x39 => if v then execVsrlv (R2.dec w) s else .next s.unimplemented
  | 0x3a => if v then execVex (R2.dec w) s else .next s.unimplemented
  | 0x3b => if v then execVeins (R2.dec w) s else .next s.unimplemented
  | 0x3e => if v then .next s.unimplemented else execRwCoeff (R2.dec w) s
  | 0x40 => execSll (vBit w) (R2.dec w) s
  | 0x41 => execSrl (vBit w) (R2.dec w) s
  | 0x42 => execSra (vBit w) (R2.dec w) s
  | 0x43 => execRol (vBit w) (R2.dec w) s
  | 0x44 => execRor (vBit w) (R2.dec w) s
  | 0x48 => execSlli (vBit w) (R2I.dec w) s
  | 0x49 => execSrli (vBit w) (R2I.dec w) s
  | 0x4a => execSrai (vBit w) (R2I.dec w) s
  | 0x4b => execRoli (vBit w) (R2I.dec w) s
  | 0x4c => execRori (vBit w) (R2I.dec w) s
  | _ => .next s.unimplemented

/-- R3/R4, root 03h (30 R135): the rows by func7. -/
def runR3 (func : Nat) (w : BitVec 36) (s : State P) : Out P :=
  match func with
  | 0x04 => execMux (vBit w) (R2.dec w) s
  | 0x10 => execSllp (vBit w) (R2.dec w) s
  | 0x11 => execSllpi (vBit w) (R2I.dec w) s
  | 0x18 => execPtrdif (vBit w) (R2.dec w) s
  | 0x22 => execChkR3Form (vBit w) (ChkR.dec w) s
  | 0x30 => execBlend (vBit w) (R2.dec w) s
  | 0x37 => execFdp (vBit w) (R2.dec w) s
  | _ => .next s.unimplemented

/-- SYS, root 07h (30 R138): the rows by func7. -/
def runSys (func : Nat) (v : Bool) (w : BitVec 36) (s : State P) : Out P :=
  match func with
  | 0x00 => if v then .next s.unimplemented else execLlal s
  | 0x01 => if v then .next s.unimplemented else execLlah s
  | 0x04 => if v then .next s.unimplemented else execLpal s
  | 0x05 => if v then .next s.unimplemented else execLpah s
  | 0x07 => .next s.unimplemented
  | 0x08 => if v then .next s.unimplemented else
      if tVector w then .next s.unimplemented else execPushq (rB w) (rA w) s
  | 0x09 => if v then .next s.unimplemented else if bVector w then .next s.unimplemented else execPopq (rA w) (rT w) s
  | 0x0a => if v then .next s.unimplemented else
      if bVector w then .next s.unimplemented else execPeekq (rA w) (rT w) s
  | 0x0b => if v then .next s.unimplemented else
      if bVector w then .next s.unimplemented else execStatq (rA w) (rT w) s
  | 0x0c => if v then .next s.unimplemented else
      if tVector w then .next s.unimplemented else execPushqi (w.extractLsb' 20 6) (rA w) s
  | 0x0d => if v then .next s.unimplemented else
      if bVector w then .next s.unimplemented else execPopqi (w.extractLsb' 14 6) (rT w) s
  | 0x0e => if v then .next s.unimplemented else
      if bVector w then .next s.unimplemented else execPeekqi (w.extractLsb' 14 6) (rT w) s
  | 0x0f => if v then .next s.unimplemented else
      if bVector w then .next s.unimplemented else execStatqi (w.extractLsb' 14 6) (rT w) s
  | 0x10 => if v then .next s.unimplemented else execRex (w.extractLsb' 27 2) s
  | 0x11 => if v then .next s.unimplemented else execPfi (rT w) s
  | 0x12 => if v then .next s.unimplemented else execWfi s
  | 0x13 => if v then .next s.unimplemented else execRte (rB w) (w.extractLsb' 8 12) s
  | 0x14 => if v then .next s.unimplemented else execSetkey s
  | 0x18 => if v then .next s.unimplemented else execSetto s
  | 0x19 => if v then .next s.unimplemented else execGetto s
  | 0x1a => if v then .next s.unimplemented else execGetzl s
  | 0x1d => if v then .next s.unimplemented else execMvseg s
  | 0x1e => if v then .next s.unimplemented else execTlbrw (R2.dec w) s
  | 0x1f => if v then .next s.unimplemented else execSync s
  | 0x20 => if v then .next s.unimplemented else execCsave s
  | 0x21 => if v then .next s.unimplemented else execCrestore s
  | _ => .next s.unimplemented

/-- CSR, root 0Fh: the rows by the operation bits (30 R116). -/
def runCsr (op : Nat) (v : Bool) (w : BitVec 36) (s : State P) : Out P :=
  if v then .next s.unimplemented
  else match op with
  | 0 => execCsrrd (Csr.dec w) s
  | 1 => execCsrrw (Csr.dec w) s
  | 2 => execCsrrs (Csr.dec w) s
  | _ => execCsrrc (Csr.dec w) s

/-- Root 1Ah: the rows by bits 35:32. -/
def runBytndx (func4 : Nat) (w : BitVec 36) (s : State P) : Out P :=
  match func4 with
  | 0x0 => execBytndx (vBit w) (R2.dec w) s
  | 0x1 => execBytndxImmediate (vBit w) (BytI.dec w) s
  | _ => .next s.unimplemented

/-- BTFLD, root 1Ch (30 R135): the rows by func7. -/
def runBtfld (func : Nat) (w : BitVec 36) (s : State P) : Out P :=
  match func with
  | 0x03 => execDep (vBit w) (R2.dec w) s
  | 0x04 => execExt (vBit w) (R2.dec w) s
  | 0x05 => execExtu (vBit w) (R2.dec w) s
  | 0x06 => execFfo (vBit w) (R2.dec w) s
  | _ => .next s.unimplemented

/-- DF1, root 30h (30 R136): the rows by func7. -/
def runDf1 (func : Nat) (w : BitVec 36) (s : State P) : Out P :=
  match func with
  | 0x08 => execDfsqrt (vBit w) (w.extractLsb' 24 3) (R1.dec w) s
  | 0x20 => execDfabs (vBit w) (R1.dec w) s
  | 0x21 => execDfnabs (vBit w) (R1.dec w) s
  | 0x22 => execDfneg (vBit w) (R1.dec w) s
  | _ => .next s.unimplemented

/-- DF2, root 31h (30 R136): the rows by func7. -/
def runDf2 (func : Nat) (w : BitVec 36) (s : State P) : Out P :=
  match func with
  | 0x00 => execScalebDecimal (vBit w) (R2.dec w) s
  | 0x02 => execDfmin (vBit w) (R2.dec w) s
  | 0x03 => execDfmax (vBit w) (R2.dec w) s
  | 0x04 => execDfadd (vBit w) (R2.dec w) s
  | 0x05 => execDfsub (vBit w) (R2.dec w) s
  | 0x08 => execDfmul (vBit w) (R2.dec w) s
  | 0x09 => execDfdiv (vBit w) (R2.dec w) s
  | 0x0a => execDfrem (vBit w) (R2.dec w) s
  | 0x0b => execDfnxt (vBit w) (R2.dec w) s
  | 0x10 => execDfcmp (vBit w) (R2.dec w) s
  | 0x11 => execDfseq (vBit w) (R2.dec w) s
  | 0x12 => execDfslt (vBit w) (R2.dec w) s
  | 0x13 => execDfsle (vBit w) (R2.dec w) s
  | 0x14 => execDfsne (vBit w) (R2.dec w) s
  | 0x15 => execDfcmpb (vBit w) (R2.dec w) s
  | 0x16 => execDfsetm (vBit w) (R2.dec w) s
  | 0x18 => execCpysgnDecimal (vBit w) (R2.dec w) s
  | 0x19 => execSgninvDecimal (vBit w) (R2.dec w) s
  | 0x1a => execSgnandDecimal (vBit w) (R2.dec w) s
  | 0x1b => execSgnorDecimal (vBit w) (R2.dec w) s
  | 0x1c => execSgnxorDecimal (vBit w) (R2.dec w) s
  | 0x1d => execSgnxnorDecimal (vBit w) (R2.dec w) s
  | 0x1e => execFclassDecimal (vBit w) (R2.dec w) s
  | _ => .next s.unimplemented

/-- F1, root 34h (30 R136): the rows by func7. -/
def runF1 (func : Nat) (w : BitVec 36) (s : State P) : Out P :=
  match func with
  | 0x00 => execFmov (vBit w) (R1.dec w) s
  | 0x01 => execFrsqrt (vBit w) (R1.dec w) s
  | 0x02 => execFtoi (vBit w) (R1.dec w) s
  | 0x03 => execItof (vBit w) (R1.dec w) s
  | 0x06 => execFsign (vBit w) (R1.dec w) s
  | 0x07 => execFman (vBit w) (R1.dec w) s
  | 0x08 => execFsqrt (vBit w) (w.extractLsb' 24 3) (R1.dec w) s
  | 0x09 => execFs2d (vBit w) (R1.dec w) s
  | 0x0a => execFs2q (vBit w) (R1.dec w) s
  | 0x0b => execFd2q (vBit w) (R1.dec w) s
  | 0x0c => execFstat (vBit w) (R1.dec w) s
  | 0x0e => execIsnan (vBit w) (R1.dec w) s
  | 0x0f => execFinite (vBit w) (R1.dec w) s
  | 0x10 => execFtx (vBit w) (R1.dec w) s
  | 0x11 => execFcx (vBit w) (R1.dec w) s
  | 0x12 => execFex (vBit w) (R1.dec w) s
  | 0x13 => execFdx (vBit w) (R1.dec w) s
  | 0x14 => execFrm (vBit w) (R1.dec w) s
  | 0x15 => execTrunc (vBit w) (R1.dec w) s
  | 0x16 => execFsync (vBit w) (R1.dec w) s
  | 0x17 => execFres (vBit w) (R1.dec w) s
  | 0x18 => execFsigmoid (vBit w) (R1.dec w) s
  | 0x19 => execFd2s (vBit w) (R1.dec w) s
  | 0x1a => execFq2s (vBit w) (R1.dec w) s
  | 0x1b => execFq2d (vBit w) (R1.dec w) s
  | 0x1e => execFclass (vBit w) (R1.dec w) s
  | 0x1f => execUnord (vBit w) (R1.dec w) s
  | 0x20 => execFabs (vBit w) (R1.dec w) s
  | 0x21 => execFnabs (vBit w) (R1.dec w) s
  | 0x22 => execFneg (vBit w) (R1.dec w) s
  | _ => .next s.unimplemented

/-- F2, root 35h (30 R136): the rows by func7. -/
def runF2 (func : Nat) (w : BitVec 36) (s : State P) : Out P :=
  match func with
  | 0x00 => execScaleb (vBit w) (R2.dec w) s
  | 0x02 => execFmin (vBit w) (R2.dec w) s
  | 0x03 => execFmax (vBit w) (R2.dec w) s
  | 0x04 => execFadd (vBit w) (R2.dec w) s
  | 0x05 => execFsub (vBit w) (R2.dec w) s
  | 0x08 => execFmul (vBit w) (R2.dec w) s
  | 0x09 => execFdiv (vBit w) (R2.dec w) s
  | 0x0a => execFrem (vBit w) (R2.dec w) s
  | 0x0b => execFnxt (vBit w) (R2.dec w) s
  | 0x10 => execFcmp (vBit w) (R2.dec w) s
  | 0x11 => execFseq (vBit w) (R2.dec w) s
  | 0x12 => execFslt (vBit w) (R2.dec w) s
  | 0x13 => execFsle (vBit w) (R2.dec w) s
  | 0x14 => execFsne (vBit w) (R2.dec w) s
  | 0x15 => execFcmpb (vBit w) (R2.dec w) s
  | 0x16 => execFsetm (vBit w) (R2.dec w) s
  | 0x18 => execCpysgn (vBit w) (R2.dec w) s
  | 0x19 => execSgninv (vBit w) (R2.dec w) s
  | 0x1a => execSgnand (vBit w) (R2.dec w) s
  | 0x1b => execSgnor (vBit w) (R2.dec w) s
  | 0x1c => execSgnxor (vBit w) (R2.dec w) s
  | 0x1d => execSgnxnor (vBit w) (R2.dec w) s
  | 0x1e => execFclassDyadic (vBit w) (R2.dec w) s
  | _ => .next s.unimplemented

/-- F3, root 36h (30 R136): the rows by func7. -/
def runF3 (func : Nat) (w : BitVec 36) (s : State P) : Out P :=
  match func with
  | 0x00 => execFma (vBit w) (R2.dec w) s
  | 0x01 => execFms (vBit w) (R2.dec w) s
  | 0x02 => execFnma (vBit w) (R2.dec w) s
  | 0x03 => execFnms (vBit w) (R2.dec w) s
  | _ => .next s.unimplemented

/-- PST1, root 38h (30 R136): the rows by func7. -/
def runPst1 (func : Nat) (w : BitVec 36) (s : State P) : Out P :=
  match func with
  | 0x08 => execPsqrt (vBit w) (w.extractLsb' 24 3) (R1.dec w) s
  | 0x20 => execPabs (vBit w) (R1.dec w) s
  | 0x21 => execPnabs (vBit w) (R1.dec w) s
  | 0x22 => execPneg (vBit w) (R1.dec w) s
  | _ => .next s.unimplemented

/-- PST2, root 39h (30 R136): the rows by func7. -/
def runPst2 (func : Nat) (w : BitVec 36) (s : State P) : Out P :=
  match func with
  | 0x04 => execPadd (vBit w) (R2.dec w) s
  | 0x05 => execPsub (vBit w) (R2.dec w) s
  | 0x08 => execPmul (vBit w) (R2.dec w) s
  | 0x09 => execPdiv (vBit w) (R2.dec w) s
  | 0x13 => execPsle (vBit w) (R2.dec w) s
  | _ => .next s.unimplemented

/-- VM, root 3Eh (30 R137): the rows by func7. -/
def runVm (func : Nat) (v : Bool) (w : BitVec 36) (s : State P) : Out P :=
  match func with
  | 0x00 => if v then .next s.unimplemented else execMand (MaskRRR.dec w) s
  | 0x01 => if v then .next s.unimplemented else execMorMask (MaskRRR.dec w) s
  | 0x02 => if v then .next s.unimplemented else execMxorMask (MaskRRR.dec w) s
  | 0x04 => if v then .next s.unimplemented else execMadd (MaskRRR.dec w) s
  | 0x05 => if v then .next s.unimplemented else execMsub (MaskRRR.dec w) s
  | 0x06 => if v then .next s.unimplemented else execMsll (MaskShift.dec w) s
  | 0x07 => if v then .next s.unimplemented else execMsrl (MaskShift.dec w) s
  | 0x08 => if v then .next s.unimplemented else execMnand (MaskRRR.dec w) s
  | 0x09 => if v then .next s.unimplemented else execMnor (MaskRRR.dec w) s
  | 0x0a => if v then .next s.unimplemented else execMxnor (MaskRRR.dec w) s
  | 0x0c => if v then .next s.unimplemented else execMfill (ToMask.dec w) s
  | 0x0d => if v then .next s.unimplemented else execMpop (FromMask.dec w) s
  | 0x0e => if v then .next s.unimplemented else execMfirst (FromMask.dec w) s
  | 0x0f => if v then .next s.unimplemented else execMlast (FromMask.dec w) s
  | 0x10 => if v then .next s.unimplemented else execMtm (ToMask.dec w) s
  | 0x11 => if v then .next s.unimplemented else execMfm (FromMask.dec w) s
  | 0x12 => if v then .next s.unimplemented else execMtvl (rA w) s
  | 0x13 => if v then .next s.unimplemented else execMfvl (w.extractLsb' 13 2) (w.extractLsb' 8 5) s
  | _ => .next s.unimplemented

/-- Root 60h: the rows by bits 35:32. -/
def runLoad60 (func4 : Nat) (w : BitVec 36) (s : State P) : Out P :=
  match func4 with
  | 0x0 => execLdb (LdD.dec w) s
  | 0x1 => execLdw (LdD.dec w) s
  | 0x2 => execLdt (LdD.dec w) s
  | 0x3 => execLdo (LdD.dec w) s
  | 0x4 => execLoadFunc4Is4At60h (LdD.dec w) s
  | 0x5 => execLoadFunc4Is5At60h (LdD.dec w) s
  | 0x7 => execLdptrAt60h (LdD.dec w) s
  | 0xd => execLdmAt60h (LdD.dec w) s
  | 0xf => execCache (CacheOps.dec w) s
  | _ => .next s.unimplemented

/-- Root 61h: the rows by bits 35:32. -/
def runLoad61 (func4 : Nat) (w : BitVec 36) (s : State P) : Out P :=
  match func4 with
  | 0x0 => execLdbIndexed (LdX.dec w) s
  | 0x1 => execLdwIndexed (LdX.dec w) s
  | 0x2 => execLdtIndexed (LdX.dec w) s
  | 0x3 => execLdoIndexed (LdX.dec w) s
  | 0x4 => execLoadFunc4Is4At61h (LdX.dec w) s
  | 0x5 => execLoadFunc4Is5At61h (LdX.dec w) s
  | 0x7 => execLdptrAt61h (LdX.dec w) s
  | 0xd => execLdmAt61h (LdX.dec w) s
  | _ => .next s.unimplemented

/-- Root 64h: the rows by bits 35:32. -/
def runLoad64 (func4 : Nat) (w : BitVec 36) (s : State P) : Out P :=
  match func4 with
  | 0x0 => execLdbz (LdD.dec w) s
  | 0x1 => execLdwz (LdD.dec w) s
  | 0x2 => execLdtz (LdD.dec w) s
  | 0x3 => execLdoAt64h (LdD.dec w) s
  | 0x4 => execLoadFunc4Is4At64h (LdD.dec w) s
  | 0x5 => execLoadFunc4Is5At64h (LdD.dec w) s
  | 0x7 => execLdptrAt64h (LdD.dec w) s
  | 0xd => execLoadFunc4Is13At64h (LdD.dec w) s
  | _ => .next s.unimplemented

/-- Root 65h: the rows by bits 35:32. -/
def runLoad65 (func4 : Nat) (w : BitVec 36) (s : State P) : Out P :=
  match func4 with
  | 0x0 => execLdbzIndexed (LdX.dec w) s
  | 0x1 => execLdwzIndexed (LdX.dec w) s
  | 0x2 => execLdtzIndexed (LdX.dec w) s
  | 0x3 => execLdoIndexedAt65h (LdX.dec w) s
  | 0x4 => execLoadFunc4Is4At65h (LdX.dec w) s
  | 0x5 => execLoadFunc4Is5At65h (LdX.dec w) s
  | 0x7 => execLdptrAt65h (LdX.dec w) s
  | 0xd => execLoadFunc4Is13At65h (LdX.dec w) s
  | _ => .next s.unimplemented

/-- Root 67h: the rows by bits 35:32. -/
def runPop (func4 : Nat) (w : BitVec 36) (s : State P) : Out P :=
  match func4 with
  | 0x1 => execPop (R2.dec w) s
  | 0x2 => execPopPair (R2.dec w) s
  | _ => .next s.unimplemented

/-- Root 68h: the rows by bits 35:32. -/
def runStore68 (func4 : Nat) (w : BitVec 36) (s : State P) : Out P :=
  match func4 with
  | 0x0 => execStb (StD.dec w) s
  | 0x1 => execStw (StD.dec w) s
  | 0x2 => execStt (StD.dec w) s
  | 0x3 => execSto (StD.dec w) s
  | 0x7 => execStptr (StD.dec w) s
  | 0xd => execStm (StD.dec w) s
  | _ => .next s.unimplemented

/-- Root 69h: the rows by bits 35:32. -/
def runStore69 (func4 : Nat) (w : BitVec 36) (s : State P) : Out P :=
  match func4 with
  | 0x0 => execStbIndexed (StX.dec w) s
  | 0x1 => execStwIndexed (StX.dec w) s
  | 0x2 => execSttIndexed (StX.dec w) s
  | 0x3 => execStoIndexed (StX.dec w) s
  | 0x7 => execStptrIndexed (StX.dec w) s
  | 0xd => execStmIndexed (StX.dec w) s
  | _ => .next s.unimplemented

/-- Root 6Fh: the rows by bits 35:32. -/
def runPush (func4 : Nat) (w : BitVec 36) (s : State P) : Out P :=
  match func4 with
  | 0x1 => execPush (R2.dec w) s
  | 0x2 => execPushPair (R2.dec w) s
  | _ => .next s.unimplemented

/-- The root opcode map, scalar page and vector page (30 R131, R132). -/
def runRoot (root func func4 : Nat) (v : Bool) (w : BitVec 36) (s : State P) : Out P :=
  match root with
  | 0x00 => if v then .next s.unimplemented else execBrk (w.extractLsb' 14 8) s
  | 0x01 => runR1 func v w s
  | 0x02 => runR2 func v w s
  | 0x03 => runR3 func w s
  | 0x04 => execAddImmediate (vBit w) (RI.dec w) s
  | 0x05 => execSubfImmediate (vBit w) (RI.dec w) s
  | 0x06 => execMulImmediate (vBit w) (RI.dec w) s
  | 0x07 => runSys func v w s
  | 0x08 => execAndImmediate (vBit w) (RI.dec w) s
  | 0x09 => execOrImmediate (vBit w) (RI.dec w) s
  | 0x0a => execXorImmediate (vBit w) (RI.dec w) s
  | 0x0d => execSetGroup (vBit w) s
  | 0x0e => execMuluImmediate (vBit w) (RI.dec w) s
  | 0x0f => runCsr (csrOp w).toNat v w s
  | 0x10 => execDivImmediate (vBit w) (RI.dec w) s
  | 0x11 => execDivuImmediate (vBit w) (RI.dec w) s
  | 0x12 => execDivsuImmediate (vBit w) (RI.dec w) s
  | 0x15 => execMulfImmediate (vBit w) (RI.dec w) s
  | 0x16 => execMulsuImmediate (vBit w) (RI.dec w) s
  | 0x17 => execPermImmediate (vBit w) (RI.dec w) s
  | 0x18 => execRemImmediate (vBit w) (RI.dec w) s
  | 0x19 => execRemuImmediate (vBit w) (RI.dec w) s
  | 0x1a => runBytndx func4 w s
  | 0x1b => execWydndxImmediate (vBit w) (RI.dec w) s
  | 0x1c => runBtfld func w s
  | 0x1f => .next s.unimplemented
  | 0x20 => execRemsuImmediate (vBit w) (RI.dec w) s
  | 0x21 => execDivrImmediate (vBit w) (RI.dec w) s
  | 0x22 => execChkImmediate (vBit w) (ChkI.dec w) s
  | 0x23 => execU21ndxImmediate (vBit w) (RI.dec w) s
  | 0x24 => if v then .next s.unimplemented else execSand (RI.dec w) s
  | 0x25 => if v then .next s.unimplemented else execSor (RI.dec w) s
  | 0x26 => execSeqImmediate (vBit w) (RI.dec w) s
  | 0x27 => execSneImmediate (vBit w) (RI.dec w) s
  | 0x28 => execSltImmediate (vBit w) (RI.dec w) s
  | 0x29 => execSgtImmediate (vBit w) (RI.dec w) s
  | 0x2a => execSltuImmediate (vBit w) (RI.dec w) s
  | 0x2b => execSgtuImmediate (vBit w) (RI.dec w) s
  | 0x30 => runDf1 func w s
  | 0x31 => runDf2 func w s
  | 0x32 => execDf3Group (vBit w) s
  | 0x33 => execDf4Group (vBit w) s
  | 0x34 => runF1 func w s
  | 0x35 => runF2 func w s
  | 0x36 => runF3 func w s
  | 0x37 => execF4Group (vBit w) s
  | 0x38 => runPst1 func w s
  | 0x39 => runPst2 func w s
  | 0x3a => execPst3Group (vBit w) s
  | 0x3b => execPst4Group (vBit w) s
  | 0x3c => if v then .next s.unimplemented else execLink (RI.dec w) s
  | 0x3d => if v then .next s.unimplemented else execUnlink (Two.dec w) s
  | 0x3e => runVm func v w s
  | 0x3f => execNop (vBit w) s
  | 0x40 => if v then .next s.unimplemented else execJal (w.extractLsb' 10 26) (w.extractLsb' 8 2) s
  | 0x41 => if v then .next s.unimplemented else execBal (w.extractLsb' 10 26) (w.extractLsb' 8 2) s
  | 0x42 => if v then .next s.unimplemented else execJalr (RI.dec w) s
  | 0x43 => if v then .next s.unimplemented else execBlank43h s
  | 0x44 => if v then .next s.unimplemented else execBlank44h s
  | 0x45 => if v then .next s.unimplemented else execBlank45h s
  | 0x46 => if v then .next s.unimplemented else execFbeq (Branch.dec w) s
  | 0x47 => if v then .next s.unimplemented else execFbne (Branch.dec w) s
  | 0x48 => if v then .next s.unimplemented else execBlt (Branch.dec w) s
  | 0x49 => if v then .next s.unimplemented else execBge (Branch.dec w) s
  | 0x4a => if v then .next s.unimplemented else execBltu (Branch.dec w) s
  | 0x4b => if v then .next s.unimplemented else execBgeu (Branch.dec w) s
  | 0x4c => if v then .next s.unimplemented else execBlank4ch s
  | 0x4d => if v then .next s.unimplemented else execBbs (Branch.dec w) s
  | 0x4e => if v then .next s.unimplemented else execBeq (Branch.dec w) s
  | 0x4f => if v then .next s.unimplemented else execBne (Branch.dec w) s
  | 0x50 => .next s.unimplemented
  | 0x51 => .next s.unimplemented
  | 0x52 => .next s.unimplemented
  | 0x53 => .next s.unimplemented
  | 0x54 => .next s.unimplemented
  | 0x58 => .next s.unimplemented
  | 0x5a => .next s.unimplemented
  | 0x5b => .next s.unimplemented
  | 0x5c => .next s.unimplemented
  | 0x5d => .next s.unimplemented
  | 0x5e => .next s.unimplemented
  | 0x5f => .next s.unimplemented
  | 0x60 => if v then .next s.unimplemented else runLoad60 func4 w s
  | 0x61 => if v then .next s.unimplemented else runLoad61 func4 w s
  | 0x62 => if v then execLdsx (w.extractLsb' 32 4) (LdD.dec w) s else .next s.unimplemented
  | 0x63 => if v then execLdxvx (w.extractLsb' 32 4) (LdD.dec w) s else .next s.unimplemented
  | 0x64 => if v then .next s.unimplemented else runLoad64 func4 w s
  | 0x65 => if v then .next s.unimplemented else runLoad65 func4 w s
  | 0x66 => if v then execCvldsx (w.extractLsb' 32 4) (LdD.dec w) s else .next s.unimplemented
  | 0x67 => if v then execCvldxvx (w.extractLsb' 32 4) (LdD.dec w) s else runPop func4 w s
  | 0x68 => if v then .next s.unimplemented else runStore68 func4 w s
  | 0x69 => if v then .next s.unimplemented else runStore69 func4 w s
  | 0x6f => if v then .next s.unimplemented else runPush func4 w s
  | 0x70 => .next s.unimplemented
  | 0x71 => .next s.unimplemented
  | 0x72 => if v then execStsx (w.extractLsb' 32 4) (StD.dec w) s else .next s.unimplemented
  | 0x73 => if v then execStxvx (w.extractLsb' 32 4) (StD.dec w) s else .next s.unimplemented
  | 0x74 => .next s.unimplemented
  | 0x75 => .next s.unimplemented
  | 0x76 => if v then execCvstsx (w.extractLsb' 32 4) (StD.dec w) s else .next s.unimplemented
  | 0x77 => if v then execCvstxvx (w.extractLsb' 32 4) (StD.dec w) s else .next s.unimplemented
  | 0x78 => .next s.unimplemented
  | 0x79 => .next s.unimplemented
  | 0x7a => .next s.unimplemented
  | 0x7b => .next s.unimplemented
  | 0x7c => .next s.unimplemented
  | 0x7d => .next s.unimplemented
  | 0x7e => .next s.unimplemented
  | 0x7f => .next s.unimplemented
  | _ => .next s.unimplemented

/-- The words that LEA_ENCODING and STZ_ENCODING assign (44 R430, R436); none where they are not supplied. -/
def supplied (w : BitVec 36) (s : State P) : Option (Out P) :=
  if P.leaEncoding = some (opOf w) then some (execLea (LdX.dec w) s)
  else if P.stzEncoding = some (opOf w) then some (execStoreZero (func4Of w) (StD.dec w) s)
  else none

/-- A word run by EXEC or MYST in state `s`. -/
def runWord (w : BitVec 36) (s : State P) : Out P :=
  (supplied w s).getD (runRoot (rootOf w).toNat (funcOf w).toNat (func4Of w).toNat (vBit w) w s)

/-! ### EXEC and MYST -/

/-- EXEC: the low 36 bits of Ra run at EXEC's own address, with no modifier; modifiers before EXEC, BRMOD
among them, are ignored (46 R550). DEDUCED (log 19): where modifiers stand before EXEC, the EIP of an exception in the
word run is the address of the EXEC word (60 R742), not of the first modifier. -/
def execExec (a : RSpec) (s : State P) : Out P :=
  match a with
  | .x ra => runWord ((s.readX ra).setWidth 36) { s with mods := Mods.none }
  | .v _ => .next s.unimplemented

/-- The word MYST runs: `D[35:0]`, where IMOD's Rd is a scalar register or a sign-extended constant (log 19)
and D is 0 without IMOD (46 R551, 30 R142). -/
def mystWord (s : State P) : BitVec 36 := (optValue sext6 s P.first s.specD).setWidth 36

/-- The state in which MYST's word runs: the modifiers keep their effect, and an exception records
MYST's own address (60 R742). -/
def State.atWord (s : State P) : State P := { s with mods := { s.mods with start := none } }

/-- The roots that are decoded in the plain RI format (46 R551). -/
def riRoot (root : BitVec 7) : Bool :=
  match root.toNat with
  | 0x04 | 0x05 | 0x06 | 0x08 | 0x09 | 0x0a | 0x0e | 0x10 | 0x11 | 0x12 | 0x15 | 0x16 | 0x17 | 0x18
  | 0x19 | 0x1a | 0x1b | 0x20 | 0x21 | 0x23 | 0x26 | 0x27 | 0x28 | 0x29 | 0x2a | 0x2b => true
  | _ => false

/-- The function codes that 30 R134 defines for the R2 group, other than MYST's own (46 R552). DEDUCED (log 19):
0Dh, which R134 lists as `(MULF, duplicate; reserved)`, counts as one, so that the Unimplemented exception it
raises is that of the word run. -/
def r2Func (func : BitVec 7) : Bool :=
  match func.toNat with
  | 0x00 | 0x01 | 0x02 | 0x04 | 0x05 | 0x06 | 0x08 | 0x09 | 0x0a | 0x0d | 0x0e | 0x0f | 0x10 | 0x11
  | 0x12 | 0x13 | 0x14 | 0x15 | 0x16 | 0x17 | 0x18 | 0x1b | 0x1c | 0x1d | 0x1e | 0x20 | 0x23 | 0x26
  | 0x27 | 0x28 | 0x29 | 0x2c | 0x2d | 0x2e | 0x2f | 0x30 | 0x31 | 0x32 | 0x33 | 0x34 | 0x38 | 0x39
  | 0x3a | 0x3b | 0x3e | 0x40 | 0x41 | 0x42 | 0x43 | 0x44 | 0x48 | 0x49 | 0x4a | 0x4b | 0x4c => true
  | _ => false

/-- MYST, RI form: MYST's word with its root replaced (46 R551). -/
def execMystImmediate (o : RI) (s : State P) : Out P :=
  plainOut false s <|
    let w := mystWord s
    if riRoot (rootOf w) then runWord (RI.enc (rootOf w) false o) s.atWord else .next s.unimplemented

/-- MYST, R2 form: MYST's word with bits 35:27 replaced (46 R552). -/
def execMyst (o : R2) (s : State P) : Out P :=
  plainOut false s <|
    let w := mystWord s
    if rootOf w = 0x02#7 && r2Func (funcOf w) then
      runWord (R2.enc 0x02#7 (funcOf w) false (w.extractLsb' 27 2) o) s.atWord
    else .next s.unimplemented

end Sys2Proof.Machine
end

