-- ==== Sys2Proof/Machine/Modifiers.lean ====
section
/-! DEFINITION. The modifier words (30 R120 to R128). -/

namespace Sys2Proof.Machine

variable {P : Config.Params}

/-- A modifier word: kept for the instruction that follows; the second of its kind raises
Unimplemented (30 R128). The group's address is that of its first word. -/
def pend (repeated : Bool) (m : Mods) (s : State P) : Out P :=
  .next (if repeated then s.unimplemented
    else { s with mods := { m with start := some s.groupAddr }, ip := s.ip + 9#64 })

/-- EXI0 (30 R124). -/
def execExi0 (payload : BitVec 28) (s : State P) : Out P :=
  pend s.mods.exi[0].isSome { s.mods with exi := s.mods.exi.set 0 (some payload) } s

/-- EXI1 (30 R124). -/
def execExi1 (payload : BitVec 28) (s : State P) : Out P :=
  pend s.mods.exi[1].isSome { s.mods with exi := s.mods.exi.set 1 (some payload) } s

/-- EXI2 (30 R124). -/
def execExi2 (payload : BitVec 28) (s : State P) : Out P :=
  pend s.mods.exi[2].isSome { s.mods with exi := s.mods.exi.set 2 (some payload) } s

/-- EXI3 (30 R124). -/
def execExi3 (payload : BitVec 28) (s : State P) : Out P :=
  pend s.mods.exi[3].isSome { s.mods with exi := s.mods.exi.set 3 (some payload) } s

/-- EXI4 (30 R124). -/
def execExi4 (payload : BitVec 28) (s : State P) : Out P :=
  pend s.mods.exi[4].isSome { s.mods with exi := s.mods.exi.set 4 (some payload) } s

/-- IMOD (30 R120). DESIGN CHOICE (log 31): its v bit, which the spec allows before a vector instruction, is
accepted before any instruction and has no effect. -/
def execImod (_v : Bool) (o : ImodOps) (s : State P) : Out P :=
  pend s.mods.imod.isSome { s.mods with imod := some o } s

/-- BRMOD (30 R121). -/
def execBrmod (o : BrmodOps) (s : State P) : Out P :=
  pend s.mods.brmod.isSome { s.mods with brmod := some o } s

/-- STRIDE (30 R122). DESIGN CHOICE (log 31): its v bit, which the spec accepts, has no effect, before a
scalar instruction too. -/
def execStride (_v : Bool) (o : StrideOps) (s : State P) : Out P :=
  pend s.mods.stride.isSome { s.mods with stride := some o } s

/-- REGLIST (30 R123). -/
def execReglist (list : BitVec 30) (s : State P) : Out P :=
  pend s.mods.reglist.isSome { s.mods with reglist := some list } s

end Sys2Proof.Machine
end

