-- ==== Sys2Proof/Machine/Dispatch.lean ====
section
/-! DEFINITION. The meaning of every instruction: one direct call for each constructor of `Instr`. -/

namespace Sys2Proof.Machine

def exec (i : Instr) (s : State) : Host.Outcome State Fault Refusal :=
  match i with
  | .brk cause => Sys2Proof.Machine.execBrk cause s
  | .cntlz v o => Sys2Proof.Machine.execCntlz v o s
  | .cntlo v o => Sys2Proof.Machine.execCntlo v o s
  | .cntpop v o => Sys2Proof.Machine.execCntpop v o s
  | .com v o => Sys2Proof.Machine.execCom v o s
  | .not v o => Sys2Proof.Machine.execNot v o s
  | .neg v o => Sys2Proof.Machine.execNeg v o s
  | .abs v o => Sys2Proof.Machine.execAbs v o s
  | .nabs v o => Sys2Proof.Machine.execNabs v o s
  | .sqrt v o => Sys2Proof.Machine.execSqrt v o s
  | .tst v o => Sys2Proof.Machine.execTst v o s
  | .zxb v o => Sys2Proof.Machine.execZxb v o s
  | .zxw v o => Sys2Proof.Machine.execZxw v o s
  | .zxt v o => Sys2Proof.Machine.execZxt v o s
  | .ptrinc v o => Sys2Proof.Machine.execPtrinc v o s
  | .transform v o => Sys2Proof.Machine.execTransform v o s
  | .sxb v o => Sys2Proof.Machine.execSxb v o s
  | .sxw v o => Sys2Proof.Machine.execSxw v o s
  | .sxt v o => Sys2Proof.Machine.execSxt v o s
  | .clip v o => Sys2Proof.Machine.execClip v o s
  | .v2bits o => Sys2Proof.Machine.execV2bits o s
  | .bits2v o => Sys2Proof.Machine.execBits2v o s
  | .vcmprss o => Sys2Proof.Machine.execVcmprss o s
  | .vcidx o => Sys2Proof.Machine.execVcidx o s
  | .vscan o => Sys2Proof.Machine.execVscan o s
  | .and v o => Sys2Proof.Machine.execAnd v o s
  | .or v o => Sys2Proof.Machine.execOr v o s
  | .xor v o => Sys2Proof.Machine.execXor v o s
  | .add v o => Sys2Proof.Machine.execAdd v o s
  | .sub v o => Sys2Proof.Machine.execSub v o s
  | .nand v o => Sys2Proof.Machine.execNand v o s
  | .nor v o => Sys2Proof.Machine.execNor v o s
  | .xnor v o => Sys2Proof.Machine.execXnor v o s
  | .mulu v o => Sys2Proof.Machine.execMulu v o s
  | .mulh v o => Sys2Proof.Machine.execMulh v o s
  | .divu v o => Sys2Proof.Machine.execDivu v o s
  | .rem v o => Sys2Proof.Machine.execRem v o s
  | .remu v o => Sys2Proof.Machine.execRemu v o s
  | .remsu v o => Sys2Proof.Machine.execRemsu v o s
  | .mulsu v o => Sys2Proof.Machine.execMulsu v o s
  | .perm v o => Sys2Proof.Machine.execPerm v o s
  | .dif v o => Sys2Proof.Machine.execDif v o s
  | .wydndx v o => Sys2Proof.Machine.execWydndx v o s
  | .mulf v o => Sys2Proof.Machine.execMulf v o s
  | .mulsuh v o => Sys2Proof.Machine.execMulsuh v o s
  | .muluh v o => Sys2Proof.Machine.execMuluh v o s
  | .cmp v o => Sys2Proof.Machine.execCmp v o s
  | .u21ndx v o => Sys2Proof.Machine.execU21ndx v o s
  | .seq v o => Sys2Proof.Machine.execSeq v o s
  | .sne v o => Sys2Proof.Machine.execSne v o s
  | .min v o => Sys2Proof.Machine.execMin v o s
  | .max v o => Sys2Proof.Machine.execMax v o s
  | .slt v o => Sys2Proof.Machine.execSlt v o s
  | .sge v o => Sys2Proof.Machine.execSge v o s
  | .sltu v o => Sys2Proof.Machine.execSltu v o s
  | .sgeu v o => Sys2Proof.Machine.execSgeu v o s
  | .mor v o => Sys2Proof.Machine.execMor v o s
  | .mxor v o => Sys2Proof.Machine.execMxor v o s
  | .mort v o => Sys2Proof.Machine.execMort v o s
  | .mxort v o => Sys2Proof.Machine.execMxort v o s
  | .plot v o => Sys2Proof.Machine.execPlot v o s
  | .sll v o => Sys2Proof.Machine.execSll v o s
  | .srl v o => Sys2Proof.Machine.execSrl v o s
  | .sra v o => Sys2Proof.Machine.execSra v o s
  | .rol v o => Sys2Proof.Machine.execRol v o s
  | .ror v o => Sys2Proof.Machine.execRor v o s
  | .mul v opt o => Sys2Proof.Machine.execMul v opt o s
  | .div v opt o => Sys2Proof.Machine.execDiv v opt o s
  | .divsu v opt o => Sys2Proof.Machine.execDivsu v opt o s
  | .myst o => Sys2Proof.Machine.execMyst o s
  | .rwCoeff o => Sys2Proof.Machine.execRwCoeff o s
  | .slli v o => Sys2Proof.Machine.execSlli v o s
  | .srli v o => Sys2Proof.Machine.execSrli v o s
  | .srai v o => Sys2Proof.Machine.execSrai v o s
  | .roli v o => Sys2Proof.Machine.execRoli v o s
  | .rori v o => Sys2Proof.Machine.execRori v o s
  | .mulfDuplicate v o => Sys2Proof.Machine.execMulfDuplicate v o s
  | .vsllv o => Sys2Proof.Machine.execVsllv o s
  | .vsrlv o => Sys2Proof.Machine.execVsrlv o s
  | .vex o => Sys2Proof.Machine.execVex o s
  | .veins o => Sys2Proof.Machine.execVeins o s
  | .mux v o => Sys2Proof.Machine.execMux v o s
  | .sllp v o => Sys2Proof.Machine.execSllp v o s
  | .ptrdif v o => Sys2Proof.Machine.execPtrdif v o s
  | .blend v o => Sys2Proof.Machine.execBlend v o s
  | .fdp v o => Sys2Proof.Machine.execFdp v o s
  | .sllpi v o => Sys2Proof.Machine.execSllpi v o s
  | .chkR3Form v o => Sys2Proof.Machine.execChkR3Form v o s
  | .dep v o => Sys2Proof.Machine.execDep v o s
  | .ext v o => Sys2Proof.Machine.execExt v o s
  | .extu v o => Sys2Proof.Machine.execExtu v o s
  | .ffo v o => Sys2Proof.Machine.execFfo v o s
  | .addImmediate v o => Sys2Proof.Machine.execAddImmediate v o s
  | .subfImmediate v o => Sys2Proof.Machine.execSubfImmediate v o s
  | .mulImmediate v o => Sys2Proof.Machine.execMulImmediate v o s
  | .andImmediate v o => Sys2Proof.Machine.execAndImmediate v o s
  | .orImmediate v o => Sys2Proof.Machine.execOrImmediate v o s
  | .xorImmediate v o => Sys2Proof.Machine.execXorImmediate v o s
  | .muluImmediate v o => Sys2Proof.Machine.execMuluImmediate v o s
  | .divImmediate v o => Sys2Proof.Machine.execDivImmediate v o s
  | .divuImmediate v o => Sys2Proof.Machine.execDivuImmediate v o s
  | .divsuImmediate v o => Sys2Proof.Machine.execDivsuImmediate v o s
  | .mulfImmediate v o => Sys2Proof.Machine.execMulfImmediate v o s
  | .mulsuImmediate v o => Sys2Proof.Machine.execMulsuImmediate v o s
  | .permImmediate v o => Sys2Proof.Machine.execPermImmediate v o s
  | .remImmediate v o => Sys2Proof.Machine.execRemImmediate v o s
  | .remuImmediate v o => Sys2Proof.Machine.execRemuImmediate v o s
  | .wydndxImmediate v o => Sys2Proof.Machine.execWydndxImmediate v o s
  | .remsuImmediate v o => Sys2Proof.Machine.execRemsuImmediate v o s
  | .divrImmediate v o => Sys2Proof.Machine.execDivrImmediate v o s
  | .u21ndxImmediate v o => Sys2Proof.Machine.execU21ndxImmediate v o s
  | .seqImmediate v o => Sys2Proof.Machine.execSeqImmediate v o s
  | .sneImmediate v o => Sys2Proof.Machine.execSneImmediate v o s
  | .sltImmediate v o => Sys2Proof.Machine.execSltImmediate v o s
  | .sgtImmediate v o => Sys2Proof.Machine.execSgtImmediate v o s
  | .sltuImmediate v o => Sys2Proof.Machine.execSltuImmediate v o s
  | .sgtuImmediate v o => Sys2Proof.Machine.execSgtuImmediate v o s
  | .mystImmediate o => Sys2Proof.Machine.execMystImmediate o s
  | .sand o => Sys2Proof.Machine.execSand o s
  | .sor o => Sys2Proof.Machine.execSor o s
  | .setGroup v => Sys2Proof.Machine.execSetGroup v s
  | .chkImmediate v o => Sys2Proof.Machine.execChkImmediate v o s
  | .bytndx v o => Sys2Proof.Machine.execBytndx v o s
  | .bytndxImmediate v o => Sys2Proof.Machine.execBytndxImmediate v o s
  | .csrrd o => Sys2Proof.Machine.execCsrrd o s
  | .csrrw o => Sys2Proof.Machine.execCsrrw o s
  | .csrrs o => Sys2Proof.Machine.execCsrrs o s
  | .csrrc o => Sys2Proof.Machine.execCsrrc o s
  | .llal => Sys2Proof.Machine.execLlal s
  | .llah => Sys2Proof.Machine.execLlah s
  | .lpal => Sys2Proof.Machine.execLpal s
  | .lpah => Sys2Proof.Machine.execLpah s
  | .setkey => Sys2Proof.Machine.execSetkey s
  | .setto => Sys2Proof.Machine.execSetto s
  | .getto => Sys2Proof.Machine.execGetto s
  | .getzl => Sys2Proof.Machine.execGetzl s
  | .mvseg => Sys2Proof.Machine.execMvseg s
  | .csave => Sys2Proof.Machine.execCsave s
  | .crestore => Sys2Proof.Machine.execCrestore s
  | .exec a => Sys2Proof.Machine.execExec a s
  | .pushq b a => Sys2Proof.Machine.execPushq b a s
  | .popq a t => Sys2Proof.Machine.execPopq a t s
  | .peekq a t => Sys2Proof.Machine.execPeekq a t s
  | .statq a t => Sys2Proof.Machine.execStatq a t s
  | .pushqi q a => Sys2Proof.Machine.execPushqi q a s
  | .popqi q t => Sys2Proof.Machine.execPopqi q t s
  | .peekqi q t => Sys2Proof.Machine.execPeekqi q t s
  | .statqi q t => Sys2Proof.Machine.execStatqi q t s
  | .rex tm => Sys2Proof.Machine.execRex tm s
  | .pfi t => Sys2Proof.Machine.execPfi t s
  | .wfi => Sys2Proof.Machine.execWfi s
  | .rte b offset => Sys2Proof.Machine.execRte b offset s
  | .tlbrw o => Sys2Proof.Machine.execTlbrw o s
  | .sync => Sys2Proof.Machine.execSync s
  | .fmov v o => Sys2Proof.Machine.execFmov v o s
  | .frsqrt v o => Sys2Proof.Machine.execFrsqrt v o s
  | .ftoi v o => Sys2Proof.Machine.execFtoi v o s
  | .itof v o => Sys2Proof.Machine.execItof v o s
  | .fsign v o => Sys2Proof.Machine.execFsign v o s
  | .fman v o => Sys2Proof.Machine.execFman v o s
  | .fs2d v o => Sys2Proof.Machine.execFs2d v o s
  | .fs2q v o => Sys2Proof.Machine.execFs2q v o s
  | .fd2q v o => Sys2Proof.Machine.execFd2q v o s
  | .fstat v o => Sys2Proof.Machine.execFstat v o s
  | .isnan v o => Sys2Proof.Machine.execIsnan v o s
  | .finite v o => Sys2Proof.Machine.execFinite v o s
  | .ftx v o => Sys2Proof.Machine.execFtx v o s
  | .fcx v o => Sys2Proof.Machine.execFcx v o s
  | .fex v o => Sys2Proof.Machine.execFex v o s
  | .fdx v o => Sys2Proof.Machine.execFdx v o s
  | .frm v o => Sys2Proof.Machine.execFrm v o s
  | .trunc v o => Sys2Proof.Machine.execTrunc v o s
  | .fsync v o => Sys2Proof.Machine.execFsync v o s
  | .fres v o => Sys2Proof.Machine.execFres v o s
  | .fsigmoid v o => Sys2Proof.Machine.execFsigmoid v o s
  | .fd2s v o => Sys2Proof.Machine.execFd2s v o s
  | .fq2s v o => Sys2Proof.Machine.execFq2s v o s
  | .fq2d v o => Sys2Proof.Machine.execFq2d v o s
  | .fclass v o => Sys2Proof.Machine.execFclass v o s
  | .unord v o => Sys2Proof.Machine.execUnord v o s
  | .fsqrt v rm o => Sys2Proof.Machine.execFsqrt v rm o s
  | .fabs v o => Sys2Proof.Machine.execFabs v o s
  | .fnabs v o => Sys2Proof.Machine.execFnabs v o s
  | .fneg v o => Sys2Proof.Machine.execFneg v o s
  | .scaleb v o => Sys2Proof.Machine.execScaleb v o s
  | .fmin v o => Sys2Proof.Machine.execFmin v o s
  | .fmax v o => Sys2Proof.Machine.execFmax v o s
  | .fadd v o => Sys2Proof.Machine.execFadd v o s
  | .fsub v o => Sys2Proof.Machine.execFsub v o s
  | .fmul v o => Sys2Proof.Machine.execFmul v o s
  | .fdiv v o => Sys2Proof.Machine.execFdiv v o s
  | .frem v o => Sys2Proof.Machine.execFrem v o s
  | .fnxt v o => Sys2Proof.Machine.execFnxt v o s
  | .fcmp v o => Sys2Proof.Machine.execFcmp v o s
  | .fseq v o => Sys2Proof.Machine.execFseq v o s
  | .fslt v o => Sys2Proof.Machine.execFslt v o s
  | .fsle v o => Sys2Proof.Machine.execFsle v o s
  | .fsne v o => Sys2Proof.Machine.execFsne v o s
  | .fcmpb v o => Sys2Proof.Machine.execFcmpb v o s
  | .fsetm v o => Sys2Proof.Machine.execFsetm v o s
  | .cpysgn v o => Sys2Proof.Machine.execCpysgn v o s
  | .sgninv v o => Sys2Proof.Machine.execSgninv v o s
  | .sgnand v o => Sys2Proof.Machine.execSgnand v o s
  | .sgnor v o => Sys2Proof.Machine.execSgnor v o s
  | .sgnxor v o => Sys2Proof.Machine.execSgnxor v o s
  | .sgnxnor v o => Sys2Proof.Machine.execSgnxnor v o s
  | .fclassDyadic v o => Sys2Proof.Machine.execFclassDyadic v o s
  | .fma v o => Sys2Proof.Machine.execFma v o s
  | .fms v o => Sys2Proof.Machine.execFms v o s
  | .fnma v o => Sys2Proof.Machine.execFnma v o s
  | .fnms v o => Sys2Proof.Machine.execFnms v o s
  | .f4Group v => Sys2Proof.Machine.execF4Group v s
  | .dfabs v o => Sys2Proof.Machine.execDfabs v o s
  | .dfnabs v o => Sys2Proof.Machine.execDfnabs v o s
  | .dfneg v o => Sys2Proof.Machine.execDfneg v o s
  | .dfsqrt v rm o => Sys2Proof.Machine.execDfsqrt v rm o s
  | .pabs v o => Sys2Proof.Machine.execPabs v o s
  | .pnabs v o => Sys2Proof.Machine.execPnabs v o s
  | .pneg v o => Sys2Proof.Machine.execPneg v o s
  | .psqrt v rm o => Sys2Proof.Machine.execPsqrt v rm o s
  | .dfmin v o => Sys2Proof.Machine.execDfmin v o s
  | .dfmax v o => Sys2Proof.Machine.execDfmax v o s
  | .dfadd v o => Sys2Proof.Machine.execDfadd v o s
  | .dfsub v o => Sys2Proof.Machine.execDfsub v o s
  | .dfmul v o => Sys2Proof.Machine.execDfmul v o s
  | .dfdiv v o => Sys2Proof.Machine.execDfdiv v o s
  | .dfrem v o => Sys2Proof.Machine.execDfrem v o s
  | .dfnxt v o => Sys2Proof.Machine.execDfnxt v o s
  | .dfcmp v o => Sys2Proof.Machine.execDfcmp v o s
  | .dfseq v o => Sys2Proof.Machine.execDfseq v o s
  | .dfslt v o => Sys2Proof.Machine.execDfslt v o s
  | .dfsle v o => Sys2Proof.Machine.execDfsle v o s
  | .dfsne v o => Sys2Proof.Machine.execDfsne v o s
  | .dfcmpb v o => Sys2Proof.Machine.execDfcmpb v o s
  | .dfsetm v o => Sys2Proof.Machine.execDfsetm v o s
  | .padd v o => Sys2Proof.Machine.execPadd v o s
  | .psub v o => Sys2Proof.Machine.execPsub v o s
  | .pmul v o => Sys2Proof.Machine.execPmul v o s
  | .pdiv v o => Sys2Proof.Machine.execPdiv v o s
  | .psle v o => Sys2Proof.Machine.execPsle v o s
  | .df3Group v => Sys2Proof.Machine.execDf3Group v s
  | .df4Group v => Sys2Proof.Machine.execDf4Group v s
  | .pst3Group v => Sys2Proof.Machine.execPst3Group v s
  | .pst4Group v => Sys2Proof.Machine.execPst4Group v s
  | .link o => Sys2Proof.Machine.execLink o s
  | .unlink o => Sys2Proof.Machine.execUnlink o s
  | .nop v => Sys2Proof.Machine.execNop v s
  | .mand o => Sys2Proof.Machine.execMand o s
  | .morMask o => Sys2Proof.Machine.execMorMask o s
  | .mxorMask o => Sys2Proof.Machine.execMxorMask o s
  | .madd o => Sys2Proof.Machine.execMadd o s
  | .msub o => Sys2Proof.Machine.execMsub o s
  | .mnand o => Sys2Proof.Machine.execMnand o s
  | .mnor o => Sys2Proof.Machine.execMnor o s
  | .mxnor o => Sys2Proof.Machine.execMxnor o s
  | .msll o => Sys2Proof.Machine.execMsll o s
  | .msrl o => Sys2Proof.Machine.execMsrl o s
  | .mfill o => Sys2Proof.Machine.execMfill o s
  | .mpop o => Sys2Proof.Machine.execMpop o s
  | .mfirst o => Sys2Proof.Machine.execMfirst o s
  | .mlast o => Sys2Proof.Machine.execMlast o s
  | .mtm o => Sys2Proof.Machine.execMtm o s
  | .mfm o => Sys2Proof.Machine.execMfm o s
  | .mtvl a => Sys2Proof.Machine.execMtvl a s
  | .mfvl tt rt => Sys2Proof.Machine.execMfvl tt rt s
  | .jal addr rt => Sys2Proof.Machine.execJal addr rt s
  | .bal addr rt => Sys2Proof.Machine.execBal addr rt s
  | .jalr o => Sys2Proof.Machine.execJalr o s
  | .fbeq o => Sys2Proof.Machine.execFbeq o s
  | .fbne o => Sys2Proof.Machine.execFbne o s
  | .blt o => Sys2Proof.Machine.execBlt o s
  | .bge o => Sys2Proof.Machine.execBge o s
  | .bltu o => Sys2Proof.Machine.execBltu o s
  | .bgeu o => Sys2Proof.Machine.execBgeu o s
  | .bbs o => Sys2Proof.Machine.execBbs o s
  | .beq o => Sys2Proof.Machine.execBeq o s
  | .bne o => Sys2Proof.Machine.execBne o s
  | .blank43h => Sys2Proof.Machine.execBlank43h s
  | .blank44h => Sys2Proof.Machine.execBlank44h s
  | .blank45h => Sys2Proof.Machine.execBlank45h s
  | .blank4ch => Sys2Proof.Machine.execBlank4ch s
  | .exi0 payload => Sys2Proof.Machine.execExi0 payload s
  | .exi1 payload => Sys2Proof.Machine.execExi1 payload s
  | .exi2 payload => Sys2Proof.Machine.execExi2 payload s
  | .exi3 payload => Sys2Proof.Machine.execExi3 payload s
  | .exi4 payload => Sys2Proof.Machine.execExi4 payload s
  | .imod v o => Sys2Proof.Machine.execImod v o s
  | .brmod o => Sys2Proof.Machine.execBrmod o s
  | .stride v o => Sys2Proof.Machine.execStride v o s
  | .reglist list => Sys2Proof.Machine.execReglist list s
  | .ldb o => Sys2Proof.Machine.execLdb o s
  | .ldbIndexed o => Sys2Proof.Machine.execLdbIndexed o s
  | .ldw o => Sys2Proof.Machine.execLdw o s
  | .ldwIndexed o => Sys2Proof.Machine.execLdwIndexed o s
  | .ldt o => Sys2Proof.Machine.execLdt o s
  | .ldtIndexed o => Sys2Proof.Machine.execLdtIndexed o s
  | .ldo o => Sys2Proof.Machine.execLdo o s
  | .ldoIndexed o => Sys2Proof.Machine.execLdoIndexed o s
  | .ldbz o => Sys2Proof.Machine.execLdbz o s
  | .ldbzIndexed o => Sys2Proof.Machine.execLdbzIndexed o s
  | .ldwz o => Sys2Proof.Machine.execLdwz o s
  | .ldwzIndexed o => Sys2Proof.Machine.execLdwzIndexed o s
  | .ldtz o => Sys2Proof.Machine.execLdtz o s
  | .ldtzIndexed o => Sys2Proof.Machine.execLdtzIndexed o s
  | .ldoAt64h o => Sys2Proof.Machine.execLdoAt64h o s
  | .ldoIndexedAt65h o => Sys2Proof.Machine.execLdoIndexedAt65h o s
  | .ldptrAt60h o => Sys2Proof.Machine.execLdptrAt60h o s
  | .ldptrAt61h o => Sys2Proof.Machine.execLdptrAt61h o s
  | .ldptrAt64h o => Sys2Proof.Machine.execLdptrAt64h o s
  | .ldptrAt65h o => Sys2Proof.Machine.execLdptrAt65h o s
  | .ldmAt60h o => Sys2Proof.Machine.execLdmAt60h o s
  | .ldmAt61h o => Sys2Proof.Machine.execLdmAt61h o s
  | .loadFunc4Is4At60h o => Sys2Proof.Machine.execLoadFunc4Is4At60h o s
  | .loadFunc4Is5At60h o => Sys2Proof.Machine.execLoadFunc4Is5At60h o s
  | .loadFunc4Is4At61h o => Sys2Proof.Machine.execLoadFunc4Is4At61h o s
  | .loadFunc4Is5At61h o => Sys2Proof.Machine.execLoadFunc4Is5At61h o s
  | .loadFunc4Is4At64h o => Sys2Proof.Machine.execLoadFunc4Is4At64h o s
  | .loadFunc4Is5At64h o => Sys2Proof.Machine.execLoadFunc4Is5At64h o s
  | .loadFunc4Is4At65h o => Sys2Proof.Machine.execLoadFunc4Is4At65h o s
  | .loadFunc4Is5At65h o => Sys2Proof.Machine.execLoadFunc4Is5At65h o s
  | .cache o => Sys2Proof.Machine.execCache o s
  | .stb o => Sys2Proof.Machine.execStb o s
  | .stbIndexed o => Sys2Proof.Machine.execStbIndexed o s
  | .stw o => Sys2Proof.Machine.execStw o s
  | .stwIndexed o => Sys2Proof.Machine.execStwIndexed o s
  | .stt o => Sys2Proof.Machine.execStt o s
  | .sttIndexed o => Sys2Proof.Machine.execSttIndexed o s
  | .sto o => Sys2Proof.Machine.execSto o s
  | .stoIndexed o => Sys2Proof.Machine.execStoIndexed o s
  | .stptr o => Sys2Proof.Machine.execStptr o s
  | .stptrIndexed o => Sys2Proof.Machine.execStptrIndexed o s
  | .stm o => Sys2Proof.Machine.execStm o s
  | .stmIndexed o => Sys2Proof.Machine.execStmIndexed o s
  | .pop o => Sys2Proof.Machine.execPop o s
  | .popPair o => Sys2Proof.Machine.execPopPair o s
  | .push o => Sys2Proof.Machine.execPush o s
  | .pushPair o => Sys2Proof.Machine.execPushPair o s
  | .ldsx f4 o => Sys2Proof.Machine.execLdsx f4 o s
  | .ldxvx f4 o => Sys2Proof.Machine.execLdxvx f4 o s
  | .cvldsx f4 o => Sys2Proof.Machine.execCvldsx f4 o s
  | .cvldxvx f4 o => Sys2Proof.Machine.execCvldxvx f4 o s
  | .stsx f4 o => Sys2Proof.Machine.execStsx f4 o s
  | .stxvx f4 o => Sys2Proof.Machine.execStxvx f4 o s
  | .cvstsx f4 o => Sys2Proof.Machine.execCvstsx f4 o s
  | .cvstxvx f4 o => Sys2Proof.Machine.execCvstxvx f4 o s
  | .cRti => Sys2Proof.Machine.execCRti s
  | .cPfi => Sys2Proof.Machine.execCPfi s
  | .cWfi => Sys2Proof.Machine.execCWfi s
  | .cSync => Sys2Proof.Machine.execCSync s
  | .cBrk cause => Sys2Proof.Machine.execCBrk cause s
  | .cLdoFp k r => Sys2Proof.Machine.execCLdoFp k r s
  | .cLdoSp k r => Sys2Proof.Machine.execCLdoSp k r s
  | .cStoFp k r => Sys2Proof.Machine.execCStoFp k r s
  | .cStoSp k r => Sys2Proof.Machine.execCStoSp k r s
  | .cJmp ra rt => Sys2Proof.Machine.execCJmp ra rt s
  | .cMov ra rt => Sys2Proof.Machine.execCMov ra rt s
  | .cAdd ra rt => Sys2Proof.Machine.execCAdd ra rt s
  | .cAnd ra rt => Sys2Proof.Machine.execCAnd ra rt s
  | .cAddi k r => Sys2Proof.Machine.execCAddi k r s
  | .cAndi k r => Sys2Proof.Machine.execCAndi k r s
  | .cOri k r => Sys2Proof.Machine.execCOri k r s
  | .cBeqz k r => Sys2Proof.Machine.execCBeqz k r s
  | .cBnez k r => Sys2Proof.Machine.execCBnez k r s
  | .cBal k rt => Sys2Proof.Machine.execCBal k rt s
  | .cLdi k r => Sys2Proof.Machine.execCLdi k r s
  | .cSlli k rt => Sys2Proof.Machine.execCSlli k rt s
  | .cSrli k rt => Sys2Proof.Machine.execCSrli k rt s
  | .cSrai k rt => Sys2Proof.Machine.execCSrai k rt s
  | .cSub rb rt => Sys2Proof.Machine.execCSub rb rt s
  | .cOr rb rt => Sys2Proof.Machine.execCOr rb rt s
  | .cXor rb rt => Sys2Proof.Machine.execCXor rb rt s
  | .cNand rb rt => Sys2Proof.Machine.execCNand rb rt s
  | .cNor rb rt => Sys2Proof.Machine.execCNor rb rt s
  | .c7chUnlisted => Sys2Proof.Machine.execC7chUnlisted s
  | .c7dhReserved => Sys2Proof.Machine.execC7dhReserved s
  | .cLdmSp list e => Sys2Proof.Machine.execCLdmSp list e s
  | .c7fhNoRow => Sys2Proof.Machine.execC7fhNoRow s
  | .scalebDecimal v o => Sys2Proof.Machine.execScalebDecimal v o s
  | .cpysgnDecimal v o => Sys2Proof.Machine.execCpysgnDecimal v o s
  | .sgninvDecimal v o => Sys2Proof.Machine.execSgninvDecimal v o s
  | .sgnandDecimal v o => Sys2Proof.Machine.execSgnandDecimal v o s
  | .sgnorDecimal v o => Sys2Proof.Machine.execSgnorDecimal v o s
  | .sgnxorDecimal v o => Sys2Proof.Machine.execSgnxorDecimal v o s
  | .sgnxnorDecimal v o => Sys2Proof.Machine.execSgnxnorDecimal v o s
  | .fclassDecimal v o => Sys2Proof.Machine.execFclassDecimal v o s
  | .loadFunc4Is13At64h o => Sys2Proof.Machine.execLoadFunc4Is13At64h o s
  | .loadFunc4Is13At65h o => Sys2Proof.Machine.execLoadFunc4Is13At65h o s
  | .c74hReserved => Sys2Proof.Machine.execC74hReserved s

end Sys2Proof.Machine
end

