-- ==== Sys2Proof/Machine/Meaning.lean ====
section
/-! DEFINITION. The meaning of every instruction for a machine with any parameters (00 R6). `exec` in Dispatch.lean, whose
form the host fixes, is this function at the default parameters (`exec_eq` in Laws/Dispatch.lean). -/

namespace Sys2Proof.Machine

/-- The next state of an instruction in the machine with the parameters `P`. -/
def execOf {P : Config.Params} (i : Instr) (s : State P) : Out P :=
  match i with
  | .brk cause => execBrk cause s
  | .cntlz v o => execCntlz v o s
  | .cntlo v o => execCntlo v o s
  | .cntpop v o => execCntpop v o s
  | .com v o => execCom v o s
  | .not v o => execNot v o s
  | .neg v o => execNeg v o s
  | .abs v o => execAbs v o s
  | .nabs v o => execNabs v o s
  | .sqrt v o => execSqrt v o s
  | .tst v o => execTst v o s
  | .zxb v o => execZxb v o s
  | .zxw v o => execZxw v o s
  | .zxt v o => execZxt v o s
  | .ptrinc v o => execPtrinc v o s
  | .transform v o => execTransform v o s
  | .sxb v o => execSxb v o s
  | .sxw v o => execSxw v o s
  | .sxt v o => execSxt v o s
  | .clip v o => execClip v o s
  | .v2bits o => execV2bits o s
  | .bits2v o => execBits2v o s
  | .vcmprss o => execVcmprss o s
  | .vcidx o => execVcidx o s
  | .vscan o => execVscan o s
  | .and v o => execAnd v o s
  | .or v o => execOr v o s
  | .xor v o => execXor v o s
  | .add v o => execAdd v o s
  | .sub v o => execSub v o s
  | .nand v o => execNand v o s
  | .nor v o => execNor v o s
  | .xnor v o => execXnor v o s
  | .mulu v o => execMulu v o s
  | .mulh v o => execMulh v o s
  | .divu v o => execDivu v o s
  | .rem v o => execRem v o s
  | .remu v o => execRemu v o s
  | .remsu v o => execRemsu v o s
  | .mulsu v o => execMulsu v o s
  | .perm v o => execPerm v o s
  | .dif v o => execDif v o s
  | .wydndx v o => execWydndx v o s
  | .mulf v o => execMulf v o s
  | .mulsuh v o => execMulsuh v o s
  | .muluh v o => execMuluh v o s
  | .cmp v o => execCmp v o s
  | .u21ndx v o => execU21ndx v o s
  | .seq v o => execSeq v o s
  | .sne v o => execSne v o s
  | .min v o => execMin v o s
  | .max v o => execMax v o s
  | .slt v o => execSlt v o s
  | .sge v o => execSge v o s
  | .sltu v o => execSltu v o s
  | .sgeu v o => execSgeu v o s
  | .mor v o => execMor v o s
  | .mxor v o => execMxor v o s
  | .mort v o => execMort v o s
  | .mxort v o => execMxort v o s
  | .plot v o => execPlot v o s
  | .sll v o => execSll v o s
  | .srl v o => execSrl v o s
  | .sra v o => execSra v o s
  | .rol v o => execRol v o s
  | .ror v o => execRor v o s
  | .mul v opt o => execMul v opt o s
  | .div v opt o => execDiv v opt o s
  | .divsu v opt o => execDivsu v opt o s
  | .myst o => execMyst o s
  | .rwCoeff o => execRwCoeff o s
  | .slli v o => execSlli v o s
  | .srli v o => execSrli v o s
  | .srai v o => execSrai v o s
  | .roli v o => execRoli v o s
  | .rori v o => execRori v o s
  | .mulfDuplicate v o => execMulfDuplicate v o s
  | .vsllv o => execVsllv o s
  | .vsrlv o => execVsrlv o s
  | .vex o => execVex o s
  | .veins o => execVeins o s
  | .mux v o => execMux v o s
  | .sllp v o => execSllp v o s
  | .ptrdif v o => execPtrdif v o s
  | .blend v o => execBlend v o s
  | .fdp v o => execFdp v o s
  | .sllpi v o => execSllpi v o s
  | .chkR3Form v o => execChkR3Form v o s
  | .dep v o => execDep v o s
  | .ext v o => execExt v o s
  | .extu v o => execExtu v o s
  | .ffo v o => execFfo v o s
  | .addImmediate v o => execAddImmediate v o s
  | .subfImmediate v o => execSubfImmediate v o s
  | .mulImmediate v o => execMulImmediate v o s
  | .andImmediate v o => execAndImmediate v o s
  | .orImmediate v o => execOrImmediate v o s
  | .xorImmediate v o => execXorImmediate v o s
  | .muluImmediate v o => execMuluImmediate v o s
  | .divImmediate v o => execDivImmediate v o s
  | .divuImmediate v o => execDivuImmediate v o s
  | .divsuImmediate v o => execDivsuImmediate v o s
  | .mulfImmediate v o => execMulfImmediate v o s
  | .mulsuImmediate v o => execMulsuImmediate v o s
  | .permImmediate v o => execPermImmediate v o s
  | .remImmediate v o => execRemImmediate v o s
  | .remuImmediate v o => execRemuImmediate v o s
  | .wydndxImmediate v o => execWydndxImmediate v o s
  | .remsuImmediate v o => execRemsuImmediate v o s
  | .divrImmediate v o => execDivrImmediate v o s
  | .u21ndxImmediate v o => execU21ndxImmediate v o s
  | .seqImmediate v o => execSeqImmediate v o s
  | .sneImmediate v o => execSneImmediate v o s
  | .sltImmediate v o => execSltImmediate v o s
  | .sgtImmediate v o => execSgtImmediate v o s
  | .sltuImmediate v o => execSltuImmediate v o s
  | .sgtuImmediate v o => execSgtuImmediate v o s
  | .mystImmediate o => execMystImmediate o s
  | .sand o => execSand o s
  | .sor o => execSor o s
  | .setGroup v => execSetGroup v s
  | .chkImmediate v o => execChkImmediate v o s
  | .bytndx v o => execBytndx v o s
  | .bytndxImmediate v o => execBytndxImmediate v o s
  | .csrrd o => execCsrrd o s
  | .csrrw o => execCsrrw o s
  | .csrrs o => execCsrrs o s
  | .csrrc o => execCsrrc o s
  | .llal => execLlal s
  | .llah => execLlah s
  | .lpal => execLpal s
  | .lpah => execLpah s
  | .setkey => execSetkey s
  | .setto => execSetto s
  | .getto => execGetto s
  | .getzl => execGetzl s
  | .mvseg => execMvseg s
  | .csave => execCsave s
  | .crestore => execCrestore s
  | .exec a => execExec a s
  | .pushq b a => execPushq b a s
  | .popq a t => execPopq a t s
  | .peekq a t => execPeekq a t s
  | .statq a t => execStatq a t s
  | .pushqi q a => execPushqi q a s
  | .popqi q t => execPopqi q t s
  | .peekqi q t => execPeekqi q t s
  | .statqi q t => execStatqi q t s
  | .rex tm => execRex tm s
  | .pfi t => execPfi t s
  | .wfi => execWfi s
  | .rte b offset => execRte b offset s
  | .tlbrw o => execTlbrw o s
  | .sync => execSync s
  | .fmov v o => execFmov v o s
  | .frsqrt v o => execFrsqrt v o s
  | .ftoi v o => execFtoi v o s
  | .itof v o => execItof v o s
  | .fsign v o => execFsign v o s
  | .fman v o => execFman v o s
  | .fs2d v o => execFs2d v o s
  | .fs2q v o => execFs2q v o s
  | .fd2q v o => execFd2q v o s
  | .fstat v o => execFstat v o s
  | .isnan v o => execIsnan v o s
  | .finite v o => execFinite v o s
  | .ftx v o => execFtx v o s
  | .fcx v o => execFcx v o s
  | .fex v o => execFex v o s
  | .fdx v o => execFdx v o s
  | .frm v o => execFrm v o s
  | .trunc v o => execTrunc v o s
  | .fsync v o => execFsync v o s
  | .fres v o => execFres v o s
  | .fsigmoid v o => execFsigmoid v o s
  | .fd2s v o => execFd2s v o s
  | .fq2s v o => execFq2s v o s
  | .fq2d v o => execFq2d v o s
  | .fclass v o => execFclass v o s
  | .unord v o => execUnord v o s
  | .fsqrt v rm o => execFsqrt v rm o s
  | .fabs v o => execFabs v o s
  | .fnabs v o => execFnabs v o s
  | .fneg v o => execFneg v o s
  | .scaleb v o => execScaleb v o s
  | .fmin v o => execFmin v o s
  | .fmax v o => execFmax v o s
  | .fadd v o => execFadd v o s
  | .fsub v o => execFsub v o s
  | .fmul v o => execFmul v o s
  | .fdiv v o => execFdiv v o s
  | .frem v o => execFrem v o s
  | .fnxt v o => execFnxt v o s
  | .fcmp v o => execFcmp v o s
  | .fseq v o => execFseq v o s
  | .fslt v o => execFslt v o s
  | .fsle v o => execFsle v o s
  | .fsne v o => execFsne v o s
  | .fcmpb v o => execFcmpb v o s
  | .fsetm v o => execFsetm v o s
  | .cpysgn v o => execCpysgn v o s
  | .sgninv v o => execSgninv v o s
  | .sgnand v o => execSgnand v o s
  | .sgnor v o => execSgnor v o s
  | .sgnxor v o => execSgnxor v o s
  | .sgnxnor v o => execSgnxnor v o s
  | .fclassDyadic v o => execFclassDyadic v o s
  | .fma v o => execFma v o s
  | .fms v o => execFms v o s
  | .fnma v o => execFnma v o s
  | .fnms v o => execFnms v o s
  | .f4Group v => execF4Group v s
  | .dfabs v o => execDfabs v o s
  | .dfnabs v o => execDfnabs v o s
  | .dfneg v o => execDfneg v o s
  | .dfsqrt v rm o => execDfsqrt v rm o s
  | .pabs v o => execPabs v o s
  | .pnabs v o => execPnabs v o s
  | .pneg v o => execPneg v o s
  | .psqrt v rm o => execPsqrt v rm o s
  | .dfmin v o => execDfmin v o s
  | .dfmax v o => execDfmax v o s
  | .dfadd v o => execDfadd v o s
  | .dfsub v o => execDfsub v o s
  | .dfmul v o => execDfmul v o s
  | .dfdiv v o => execDfdiv v o s
  | .dfrem v o => execDfrem v o s
  | .dfnxt v o => execDfnxt v o s
  | .dfcmp v o => execDfcmp v o s
  | .dfseq v o => execDfseq v o s
  | .dfslt v o => execDfslt v o s
  | .dfsle v o => execDfsle v o s
  | .dfsne v o => execDfsne v o s
  | .dfcmpb v o => execDfcmpb v o s
  | .dfsetm v o => execDfsetm v o s
  | .padd v o => execPadd v o s
  | .psub v o => execPsub v o s
  | .pmul v o => execPmul v o s
  | .pdiv v o => execPdiv v o s
  | .psle v o => execPsle v o s
  | .df3Group v => execDf3Group v s
  | .df4Group v => execDf4Group v s
  | .pst3Group v => execPst3Group v s
  | .pst4Group v => execPst4Group v s
  | .link o => execLink o s
  | .unlink o => execUnlink o s
  | .nop v => execNop v s
  | .mand o => execMand o s
  | .morMask o => execMorMask o s
  | .mxorMask o => execMxorMask o s
  | .madd o => execMadd o s
  | .msub o => execMsub o s
  | .mnand o => execMnand o s
  | .mnor o => execMnor o s
  | .mxnor o => execMxnor o s
  | .msll o => execMsll o s
  | .msrl o => execMsrl o s
  | .mfill o => execMfill o s
  | .mpop o => execMpop o s
  | .mfirst o => execMfirst o s
  | .mlast o => execMlast o s
  | .mtm o => execMtm o s
  | .mfm o => execMfm o s
  | .mtvl a => execMtvl a s
  | .mfvl tt rt => execMfvl tt rt s
  | .jal addr rt => execJal addr rt s
  | .bal addr rt => execBal addr rt s
  | .jalr o => execJalr o s
  | .fbeq o => execFbeq o s
  | .fbne o => execFbne o s
  | .blt o => execBlt o s
  | .bge o => execBge o s
  | .bltu o => execBltu o s
  | .bgeu o => execBgeu o s
  | .bbs o => execBbs o s
  | .beq o => execBeq o s
  | .bne o => execBne o s
  | .blank43h => execBlank43h s
  | .blank44h => execBlank44h s
  | .blank45h => execBlank45h s
  | .blank4ch => execBlank4ch s
  | .exi0 payload => execExi0 payload s
  | .exi1 payload => execExi1 payload s
  | .exi2 payload => execExi2 payload s
  | .exi3 payload => execExi3 payload s
  | .exi4 payload => execExi4 payload s
  | .imod v o => execImod v o s
  | .brmod o => execBrmod o s
  | .stride v o => execStride v o s
  | .reglist list => execReglist list s
  | .ldb o => execLdb o s
  | .ldbIndexed o => execLdbIndexed o s
  | .ldw o => execLdw o s
  | .ldwIndexed o => execLdwIndexed o s
  | .ldt o => execLdt o s
  | .ldtIndexed o => execLdtIndexed o s
  | .ldo o => execLdo o s
  | .ldoIndexed o => execLdoIndexed o s
  | .ldbz o => execLdbz o s
  | .ldbzIndexed o => execLdbzIndexed o s
  | .ldwz o => execLdwz o s
  | .ldwzIndexed o => execLdwzIndexed o s
  | .ldtz o => execLdtz o s
  | .ldtzIndexed o => execLdtzIndexed o s
  | .ldoAt64h o => execLdoAt64h o s
  | .ldoIndexedAt65h o => execLdoIndexedAt65h o s
  | .ldptrAt60h o => execLdptrAt60h o s
  | .ldptrAt61h o => execLdptrAt61h o s
  | .ldptrAt64h o => execLdptrAt64h o s
  | .ldptrAt65h o => execLdptrAt65h o s
  | .ldmAt60h o => execLdmAt60h o s
  | .ldmAt61h o => execLdmAt61h o s
  | .loadFunc4Is4At60h o => execLoadFunc4Is4At60h o s
  | .loadFunc4Is5At60h o => execLoadFunc4Is5At60h o s
  | .loadFunc4Is4At61h o => execLoadFunc4Is4At61h o s
  | .loadFunc4Is5At61h o => execLoadFunc4Is5At61h o s
  | .loadFunc4Is4At64h o => execLoadFunc4Is4At64h o s
  | .loadFunc4Is5At64h o => execLoadFunc4Is5At64h o s
  | .loadFunc4Is4At65h o => execLoadFunc4Is4At65h o s
  | .loadFunc4Is5At65h o => execLoadFunc4Is5At65h o s
  | .cache o => execCache o s
  | .stb o => execStb o s
  | .stbIndexed o => execStbIndexed o s
  | .stw o => execStw o s
  | .stwIndexed o => execStwIndexed o s
  | .stt o => execStt o s
  | .sttIndexed o => execSttIndexed o s
  | .sto o => execSto o s
  | .stoIndexed o => execStoIndexed o s
  | .stptr o => execStptr o s
  | .stptrIndexed o => execStptrIndexed o s
  | .stm o => execStm o s
  | .stmIndexed o => execStmIndexed o s
  | .pop o => execPop o s
  | .popPair o => execPopPair o s
  | .push o => execPush o s
  | .pushPair o => execPushPair o s
  | .ldsx f4 o => execLdsx f4 o s
  | .ldxvx f4 o => execLdxvx f4 o s
  | .cvldsx f4 o => execCvldsx f4 o s
  | .cvldxvx f4 o => execCvldxvx f4 o s
  | .stsx f4 o => execStsx f4 o s
  | .stxvx f4 o => execStxvx f4 o s
  | .cvstsx f4 o => execCvstsx f4 o s
  | .cvstxvx f4 o => execCvstxvx f4 o s
  | .cRti => execCRti s
  | .cPfi => execCPfi s
  | .cWfi => execCWfi s
  | .cSync => execCSync s
  | .cBrk cause => execCBrk cause s
  | .cLdoFp k r => execCLdoFp k r s
  | .cLdoSp k r => execCLdoSp k r s
  | .cStoFp k r => execCStoFp k r s
  | .cStoSp k r => execCStoSp k r s
  | .cJmp ra rt => execCJmp ra rt s
  | .cMov ra rt => execCMov ra rt s
  | .cAdd ra rt => execCAdd ra rt s
  | .cAnd ra rt => execCAnd ra rt s
  | .cAddi k r => execCAddi k r s
  | .cAndi k r => execCAndi k r s
  | .cOri k r => execCOri k r s
  | .cBeqz k r => execCBeqz k r s
  | .cBnez k r => execCBnez k r s
  | .cBal k rt => execCBal k rt s
  | .cLdi k r => execCLdi k r s
  | .cSlli k rt => execCSlli k rt s
  | .cSrli k rt => execCSrli k rt s
  | .cSrai k rt => execCSrai k rt s
  | .cSub rb rt => execCSub rb rt s
  | .cOr rb rt => execCOr rb rt s
  | .cXor rb rt => execCXor rb rt s
  | .cNand rb rt => execCNand rb rt s
  | .cNor rb rt => execCNor rb rt s
  | .c7chUnlisted => execC7chUnlisted s
  | .c7dhReserved => execC7dhReserved s
  | .cLdmSp list e => execCLdmSp list e s
  | .c7fhNoRow => execC7fhNoRow s
  | .scalebDecimal v o => execScalebDecimal v o s
  | .cpysgnDecimal v o => execCpysgnDecimal v o s
  | .sgninvDecimal v o => execSgninvDecimal v o s
  | .sgnandDecimal v o => execSgnandDecimal v o s
  | .sgnorDecimal v o => execSgnorDecimal v o s
  | .sgnxorDecimal v o => execSgnxorDecimal v o s
  | .sgnxnorDecimal v o => execSgnxnorDecimal v o s
  | .fclassDecimal v o => execFclassDecimal v o s
  | .loadFunc4Is13At64h o => execLoadFunc4Is13At64h o s
  | .loadFunc4Is13At65h o => execLoadFunc4Is13At65h o s
  | .c74hReserved => execC74hReserved s

end Sys2Proof.Machine
end

