-- ==== Sys2Proof/Machine/Fetch.lean ====
section
/-! DEFINITION. Fetching an instruction (20 R72, R77, 70 R790), running one word of it, and what the
interrupt lines do from step to step (60 R750). -/

namespace Sys2Proof.Machine

variable {P : Config.Params}

/-- The nybble at nybble address `a`: bits 3:0 of byte `a >> 1` when `a` is even, bits 7:4 when it is
odd (20 R72). -/
def nybbleOf (byte : Word → Byte) (a : Word) : BitVec 4 :=
  let b := byte (a >>> 1)
  if a.extractLsb' 0 1 = 0#1 then b.extractLsb' 0 4 else b.extractLsb' 4 4

/-- Memory with one nybble changed. -/
def setNybble (m : List Host.Cell) (a : Word) (n : BitVec 4) : List Host.Cell :=
  let b := byteAt m (a >>> 1)
  setByte m (a >>> 1) <|
    if a.extractLsb' 0 1 = 0#1 then b.extractLsb' 4 4 ++ n else n ++ b.extractLsb' 0 4

/-- The nine nybbles from `ip` on: the one at `ip + k` gives bits `4k+3:4k` (20 R77). -/
def wordOf (byte : Word → Byte) (ip : Word) : BitVec 36 :=
  nybbleOf byte (ip + 8#64) ++ nybbleOf byte (ip + 7#64) ++ nybbleOf byte (ip + 6#64) ++ nybbleOf byte (ip + 5#64) ++
    nybbleOf byte (ip + 4#64) ++ nybbleOf byte (ip + 3#64) ++ nybbleOf byte (ip + 2#64) ++
    nybbleOf byte (ip + 1#64) ++ nybbleOf byte ip

/-- `Fetch(ip)` from memory `m`; a 20-bit word is the low 20 bits (20 R77). -/
def fetchWord (m : List Host.Cell) (ip : Word) : BitVec 36 := wordOf (byteAt m) ip

/-- The word at IP, read from the fetch view through TRANSLATE, which is asked for each byte (20 R77, R84, 70 R790;
DESIGN CHOICE, log 10). -/
def State.fetch (s : State P) : BitVec 36 := wordOf (fun a => byteAt s.imem (physical s a .fetch)) s.ip

/-- The accesses of that fetch: one of the byte of each nybble of the word, nine of them or the five of a 20-bit word
(20 R72, R77). DESIGN CHOICE (log 10): TRANSLATE and MEM_RANGE are asked for each of these bytes by itself. -/
def State.fetchItems (s : State P) : List (Word × Nat) :=
  (List.range (if s.fetch.extractLsb' 4 4 = 0x7#4 then 5 else 9)).map fun k => ((s.ip + BitVec.ofNat 64 k) >>> 1, 1)

/-- Memory with the nybbles of a 36-bit word stored from nybble address `ip` on: those of the low `k`
digits of the word. -/
def storeWord (m : List Host.Cell) (ip : Word) (w : BitVec 36) (k : Nat) : List Host.Cell :=
  match k with
  | 0 => m
  | j + 1 => setNybble (storeWord m ip w j) (ip + BitVec.ofNat 64 j) (w.extractLsb' (4 * j) 4)

/-- The interrupt lines move on to the next sample after a completed group or a stalled cycle, and not between
a modifier and its instruction (60 R750, 30 R128; log 7). -/
def State.tick (s : State P) : State P :=
  if s.inGroup && !s.waiting then s else { s with irqLines := s.irqLines.tail }

/-- The end of a step. -/
def Out.tick (r : Out P) : Out P :=
  match r with
  | .next t => .next t.tick
  | .fault e => .fault e
  | .refused e => .refused e

/-- Entry of the interrupt that the lines ask for (60 R750). No group is completed, so the lines keep their
sample. -/
def State.takeInterrupt (s : State P) : State P := s.raiseExc s.irq.word

/-- Run what the decoder read, `run` being what an instruction does; a blank cell of the opcode maps raises
Unimplemented (30 R140). -/
def runDecoded (run : Instr → State P → Out P) (r : Except Reject Instr) (s : State P) : Out P :=
  match r with
  | .ok i => run i s
  | .error _ => .next s.unimplemented

/-- One step, `run` being what an instruction does: an interrupt entry, or the fetch, decoding and execution of one
word (00 R9, 60 R750, 20 R77). Noncomputable as the decoder is; the kernel evaluates it. -/
noncomputable def stepBy (run : Instr → State P → Out P) (s : State P) : Out P :=
  if s.interruptTaken then .next s.takeInterrupt
  else Out.tick
    (accessing s ⟨.fetch, s.fetchItems⟩ ((supplied s.fetch s).getD (runDecoded run (decode s.fetch) s)))

/-- One step of the machine with the parameters `P`. -/
noncomputable def stepOf (s : State P) : Out P := stepBy execOf s

end Sys2Proof.Machine
end

