-- ==== Sys2Proof/Machine/Step.lean ====
section
/-! DEFINITION. One step of the machine: an interrupt entry, or the fetch, decoding and execution of one
word (00 R9, 60 R750, 20 R77). -/

namespace Sys2Proof.Machine

/-- One step of the machine with the default parameters; `stepOf` is that of any parameters, and the same function at
these (`step_eq` in Laws/Dispatch.lean). Noncomputable as the decoder is; the kernel evaluates it. -/
noncomputable def step (s : State) : Host.Outcome State Fault Refusal := stepBy exec s

/-- `s` with the instruction whose bits are `w` (every bit from `nbits` on 0) where the next step
fetches: its nybbles stand in the fetch view of memory at IP. -/
def State.withFetchWord (s : State) (nbits w : Nat) : State :=
  { s with imem := storeWord s.imem s.ip (BitVec.ofNat 36 (w % 2 ^ nbits)) 9 }

end Sys2Proof.Machine
end

