-- ==== Sys2Proof/Safety.lean ====
section
/-! DEFINITION. What the claims about this machine are stated in: whether an outcome is a next state, and
the well-formed states. -/

namespace Sys2Proof

/-- The modifier words, opcodes 50h to 5Fh (30 R120 to R128). -/
def Instr.isModifier : Instr → Bool
  | .exi0 _ | .exi1 _ | .exi2 _ | .exi3 _ | .exi4 _ | .imod _ _ | .brmod _ | .stride _ _ | .reglist _ => true
  | _ => false

/-- The instructions EXEC may run: no modifier, no EXEC or MYST, no 20-bit word (46 R550). -/
def Instr.runsInExec (i : Instr) : Bool :=
  !i.isShort && !i.isModifier &&
    match i with
    | .exec _ | .myst _ | .mystImmediate _ => false
    | _ => true

end Sys2Proof

namespace Sys2Proof.Machine

variable {P : Config.Params}

/-- Every next state of an outcome satisfies `Q`. -/
def Out.All (Q : State P → Prop) (r : Out P) : Prop := ∀ t, r = .next t → Q t

/-- An outcome that is no stop: this machine has no fault (60 R737) and refuses no instruction. -/
def Out.goesOn (r : Out P) : Prop := ∃ t, r = .next t

/-- The pending modifiers agree with the address of the group: none is kept without it (30 R128). -/
def Mods.wf (m : Mods) : Prop := m.start = Option.none → m = Mods.none

/-- The well-formed states: memory, its fetch view, the CSR space and the TLB are in canonical form, VL
is at most VLMAX (10 R28), no queue is longer than QUEUE_DEPTH (10 R47, 46 R556), a graphics
coefficient has 32 bits (43 R398), and the modifiers belong to a group. -/
structure State.wf (s : State P) : Prop where
  mem : Memory.wf s.mem = true
  imem : Memory.wf s.imem = true
  csr : sparseWf 0 65536 s.csr = true
  tlb : sparseWf 0 (P.tlbWays * P.tlbEntries) s.tlb = true
  vl : s.vl.toNat ≤ P.vlmax
  queues : ∀ q : QueueNo P, (s.queue q).length ≤ P.queueDepth
  coeff : ∀ k : Fin 13, (s.coeff[k]).toNat < 2 ^ 32
  mods : s.mods.wf

/-! ### What an instruction answers

Each of these says of an outcome that it is a next state, which one, and that nothing else changed. -/

/-- The next state goes on at `ip` and nothing else changes. -/
def OnlyIp (r : Out P) (s : State P) (ip : Word) : Prop := r = .next { s with ip := ip, mods := Mods.none }

/-- Scalar register `rt` holds `a` (a write to x0 has no effect, 10 R21) and the machine goes on at `ip`;
no other register, no memory, nothing else changes. -/
def ScalarResult (r : Out P) (s : State P) (ip : Word) (rt : BitVec 5) (a : Word) : Prop :=
  ∃ t, r = .next t ∧ t.ip = ip ∧ t.mods = Mods.none ∧
    (∀ q, t.readX q = if q = rt ∧ q ≠ 0#5 then a else s.readX q) ∧
    t = { s with x := t.x, ip := t.ip, mods := t.mods }

/-- Vector register `rt` holds `f e` in element `e`; nothing else changes. -/
def VectorResult (r : Out P) (s : State P) (ip : Word) (rt : BitVec 5) (f : Fin P.vlmax → Word) : Prop :=
  ∃ t, r = .next t ∧ t.ip = ip ∧ t.mods = Mods.none ∧
    (∀ q e, (t.readV q)[e] = if q = rt then f e else (s.readV q)[e]) ∧
    t = { s with v := t.v, ip := t.ip, mods := t.mods }

/-- Mask register `rt` holds `a`; nothing else changes. -/
def MaskResult (r : Out P) (s : State P) (ip : Word) (rt : BitVec 3) (a : Mask P) : Prop :=
  ∃ t, r = .next t ∧ t.ip = ip ∧ t.mods = Mods.none ∧
    (∀ q, t.readM q = if q = rt then a else s.readM q) ∧
    t = { s with vm := t.vm, ip := t.ip, mods := t.mods }

/-- Memory `m'` is memory `m` after the `n` low bytes of `a` are stored at `ea`: the bytes from `ea` on
hold them, and every other byte reads as before. -/
def Stored (m m' : List Host.Cell) (ea : Word) (n : Nat) (a : Word) : Prop :=
  (∀ k < n, byteAt m' (ea + BitVec.ofNat 64 k) = a.extractLsb' (8 * k) 8) ∧
    ∀ b, (∀ k < n, b ≠ ea + BitVec.ofNat 64 k) → byteAt m' b = byteAt m b

/-- The `n` low bytes of `a` are stored at `ea`; no register and no other byte changes. -/
def StoreResult (r : Out P) (s : State P) (ip : Word) (ea : Word) (n : Nat) (a : Word) : Prop :=
  ∃ t, r = .next t ∧ t.ip = ip ∧ t.mods = Mods.none ∧ Stored s.mem t.mem ea n a ∧
    t = { s with mem := t.mem, ip := t.ip, mods := t.mods }

/-- Exception entry with cause word `c` (60 R740): PMSTACK, the cause of debug mode, EIP and IP change,
and nothing else. -/
def Raises (r : Out P) (s : State P) (c : Word) : Prop :=
  r = .next { s with
    pmstack := s.pmstack <<< 4 ||| 0xa#64
    cause := s.cause.set 4 c
    eip := s.groupAddr
    ip := s.tvec[4]
    mods := Mods.none }

/-- The Unimplemented exception (60 R736). -/
def Unimplemented (r : Out P) (s : State P) : Prop := Raises r s (P.causeUnimp.setWidth 64)

/-- The general rule for a form with scalar and vector targets (30 R129, R130): `f e` is the result at
element e. A scalar target gets `f 0`; of a vector target an active element below VL gets its result, an
inactive one is zeroed or kept, and the elements from VL on are kept; every other combination of v and
type codes, those of pending IMOD and STRIDE words among them (log 17), raises Unimplemented. -/
def ElementRule (r : Out P) (s : State P) (v : Bool) (t : RSpec) (legal : Bool) (mz : Mask P × Bool)
    (f : Fin P.vlmax → Word) : Prop :=
  match legal && s.modsLegal v, v, t with
  | true, false, .x rt => ScalarResult r s (s.ip + 9#64) rt (f P.first)
  | true, true, .v rt =>
    VectorResult r s (s.ip + 9#64) rt fun e =>
      if e.val < s.vl.toNat then
        if mz.1.getLsbD e.val then f e else if mz.2 then 0#64 else (s.readV rt)[e]
      else (s.readV rt)[e]
  | _, _, _ => Unimplemented r s

/-- The general rule for an operation that may raise: `trap e` is the cause at element e, if it fails there.
A scalar form that fails writes nothing; of a vector form in which e is the lowest active element below VL
that fails, the elements below e are written and those from e on are kept (60 R741, R743). -/
def TrapRule (r : Out P) (s : State P) (v : Bool) (t : RSpec) (legal : Bool) (mz : Mask P × Bool)
    (trap : Fin P.vlmax → Option (BitVec 8)) (f : Fin P.vlmax → Word) : Prop :=
  match legal && s.modsLegal v, v, t with
  | true, false, .x rt =>
    (trap P.first = none → ScalarResult r s (s.ip + 9#64) rt (f P.first)) ∧
      ∀ c, trap P.first = some c → Raises r s (c.setWidth 64)
  | true, true, .v rt =>
    let merged (e : Fin P.vlmax) : Word :=
      if mz.1.getLsbD e.val then f e else if mz.2 then 0#64 else (s.readV rt)[e]
    ((∀ e : Fin P.vlmax, e.val < s.vl.toNat → mz.1.getLsbD e.val = true → trap e = none) →
      VectorResult r s (s.ip + 9#64) rt fun e => if e.val < s.vl.toNat then merged e else (s.readV rt)[e]) ∧
    ∀ (e : Fin P.vlmax) (c : BitVec 8), e.val < s.vl.toNat → mz.1.getLsbD e.val = true → trap e = some c →
      (∀ k : Fin P.vlmax, k.val < e.val → mz.1.getLsbD k.val = true → trap k = none) →
      ∃ w : VReg P, (∀ k : Fin P.vlmax, w[k] = if k.val < e.val then merged k else (s.readV rt)[k]) ∧
        Raises r { s with v := s.v.set rt.toNat w } (c.setWidth 64)
  | _, _, _ => Unimplemented r s

/-- No modifier stands in the way of a scalar instruction: there is no BRMOD word (45 R483), and no operand of a
pending IMOD or STRIDE word is a vector register (30 R130; log 17). -/
abbrev State.scalarReady (s : State P) : Prop := s.mods.brmod = none ∧ s.modsLegal false = true

/-- The value of a source of a scalar instruction: a scalar register or a constant; a vector register
has none (30 R105). -/
def scalarSource (ext : BitVec 6 → Word) (s : State P) : OSpec → Option Word
  | .x r => some (s.readX r)
  | .imm c => some (ext c)
  | .v _ => none

/-! ### Binary64 numbers -/

/-- The value of a binary64 pattern that is no NaN, as a multiple of 2^-1074; an infinity counts as 2^1024
(42 R341). -/
def fpUnits (a : Word) : Int :=
  let e := (a.extractLsb' 52 11).toNat
  let f := (a.extractLsb' 0 52).toNat
  let m : Int := if e = 0 then (f : Int) else ((2 ^ 52 + f) * 2 ^ (e - 1) : Nat)
  if a.getLsbD 63 then -m else m

/-- A NaN has exponent 7FFh and a fraction that is not 0 (42 R341). -/
def fpNanPattern (a : Word) : Prop := a.extractLsb' 52 11 = 0x7ff#11 ∧ a.extractLsb' 0 52 ≠ 0#52

/-- A finite number: the exponent field is not 7FFh (42 R341). -/
def fpFinitePattern (a : Word) : Prop := a.extractLsb' 52 11 ≠ 0x7ff#11

/-- The value 1.0 in these units. -/
def fpOne : Int := 2 ^ 1074

/-- `w` is a binary64 number nearest to `k / d` (in units of 2^-1074), and between two equally near ones it
is the one whose last bit is 0: the value rounded to nearest even, where what lies beyond the largest finite
number by half a unit or more is an infinity (42 R341, R342; log 25). -/
def RoundedTo (w : Word) (k d : Int) : Prop :=
  ¬fpNanPattern w ∧ ∀ c, ¬fpNanPattern c →
    |fpUnits w * d - k| ≤ |fpUnits c * d - k| ∧
      (|fpUnits w * d - k| = |fpUnits c * d - k| → fpUnits c ≠ fpUnits w → w.getLsbD 0 = false)

end Sys2Proof.Machine
end

