-- ==== Sys2Proof/Certificates/Slice0/Obligations.lean ====
section
/-! DEFINITION. The statements for the provers. Each is about the machine and says the next state: the
result, and that nothing else changes. A table lists the instructions of one shape, each with the result
the spec gives it. Under `s.scalarReady` no pending modifier stands in the way of a scalar instruction; what one that
does raises is MisplacedModifiers. -/

section

open Sys2Proof Sys2Proof.Machine

/-! ### Encoding, fetch and step -/

/-- Every well-formed instruction is what the decoder reads from its word (30, 47 R600, 48). -/
def Obligations.EncodeDecode : Prop := ∀ i : Instr, i.wellFormed = true → decode i.encode = .ok i

/-- Words written out from the spec's examples decode to the instructions they stand for. -/
def Obligations.SampleWords : Prop :=
  decode 0x000508104#36 = .ok (.addImmediate false ⟨5#16, .x 2#5, .x 1#5⟩) ∧
  decode 0x00020524e#36 = .ok (.beq ⟨.x 2#5, 1#5, 18#16⟩) ∧
  decode 0x30010010f#36 = .ok (.csrrd ⟨0x3001#16, 0#5, 1#5⟩) ∧
  decode 0x700308068#36 = .ok (.stptr ⟨0#11, .x 3#5, .x 2#5⟩) ∧
  decode 0x38078a181#36 = .ok (.vcmprss ⟨3#3, true, .v 2#5, .v 1#5⟩) ∧
  decode 0x00000045f#36 = .ok (.reglist 0x13#30) ∧
  decode 0xf9e75#36 = .ok (.cAddi 0x7c#7 30#5)

/-- A word is 20 bits long exactly where bits 7:4 are 0111b, and then only its low 20 bits count
(48 R670, R707). -/
def Obligations.InstructionLength : Prop :=
  (∀ w i, decode w = .ok i → i.isShort = (w.extractLsb' 4 4 == 0x7#4)) ∧
  ∀ w, w.extractLsb' 4 4 = 0x7#4 → decode w = decode ((w.setWidth 20).setWidth 36)

/-- No interrupt is taken while the enable is 0 or the level is 0 (60 R750), between a modifier and its instruction
(30 R128, 60 R750), or at a stalled WFI, which first completes (60 R752; log 8). The step is then `exec` of the
instruction the fetched word decodes to, or the Unimplemented exception where the word lies in a blank cell of an
opcode map (30 R140); the interrupt lines move on when a group is complete or a WFI is stalled (log 7). -/
def Obligations.StepRunsDecoded : Prop :=
  ∀ s : State,
    (s.pmstack.getLsbD 0 = false ∨ s.irq.level = 0#4 ∨ s.mods.start.isSome = true ∨ s.waiting = true) →
    (∀ i, decode (fetchWord s.imem s.ip) = .ok i → i.wellFormed = true →
      ∃ t, exec i s = .next t ∧
        step s = .next (if t.mods.start.isSome = true ∧ t.waiting = false then t
          else { t with irqLines := t.irqLines.tail })) ∧
    ∀ e, decode (fetchWord s.imem s.ip) = .error e →
      ∃ t, Unimplemented (.next t) s ∧
        step s = .next { t with irqLines := s.irqLines.tail }

/-- Fetch takes bits 4k+3:4k from the nybble at ip + k, which is the low half of byte (ip + k) >> 1 when
ip + k is even and the high half when it is odd (20 R72, R77). -/
def Obligations.FetchLayout : Prop :=
  ∀ (m : List Host.Cell) (ip : Word) (k j : Nat), k < 9 → j < 4 →
    (fetchWord m ip).getLsbD (4 * k + j) =
      (byteAt m ((ip + BitVec.ofNat 64 k) >>> 1)).getLsbD
        (if (ip + BitVec.ofNat 64 k).getLsbD 0 then 4 + j else j)

/-- An enabled interrupt is taken at the boundary before an instruction group, with the cause
`level << 8 | cause` and EIP at that group. Nothing else changes; no group is completed, so the lines keep
their sample (60 R750). `interruptTaken` is this condition: the enable is 1, the level is not 0, no modifier is
pending (30 R128) and no WFI is stalled (60 R752; log 8). -/
def Obligations.InterruptEntry : Prop :=
  (∀ s : State, s.interruptTaken = true ↔
    s.pmstack.getLsbD 0 = true ∧ s.irq.level ≠ 0#4 ∧ s.mods.start = none ∧ s.waiting = false) ∧
  ∀ s : State, s.pmstack.getLsbD 0 = true → s.irq.level ≠ 0#4 → s.mods.start = none → s.waiting = false →
    step s = .next { s with
      pmstack := s.pmstack <<< 4 ||| 0xa#64
      cause := s.cause.set 4 (s.irq.level.setWidth 64 <<< 8 ||| s.irq.cause.setWidth 64)
      eip := s.ip
      ip := s.tvec[4]
      mods := Mods.none }

/-! ### The whole machine -/

/-- A step keeps the well-formed states. -/
def Obligations.WellFormedKept : Prop := ∀ s t : State, s.wf → step s = .next t → t.wf

/-- The state after reset is well formed. The spec leaves VL, the coefficients, the CSRs, the TLB and memory
unspecified after reset (70 R781); that they are 0 there, on which this rests, is the model's choice: log 2 for the
registers and log 3 for memory (both DESIGN CHOICE). -/
def Obligations.ResetWellFormed : Prop := State.reset.wf

/-- After reset IP is RESET_IP, PMSTACK is 0Ah, so that the core is in debug mode with interrupts
disabled, and x0 is 0 (70 R780). -/
def Obligations.ResetState : Prop :=
  State.reset.ip = Config.default.resetIp ∧ State.reset.pmstack = 0x000000000000000a#64 ∧
    State.reset.mode = .debug ∧ State.reset.ie = false ∧ State.reset.readX 0#5 = 0#64

/-- No state stops the machine: every step answers a next state (60 R737). -/
def Obligations.EveryStepGoesOn : Prop := ∀ s : State, ∃ t, step s = .next t

/-- Which instructions can change the state outside x, v, vm, memory and the exception registers. EXEC and
MYST are left out: they run one of the others. That the CSR instructions change the CSR space only, and keep
tvec, badaddr and the rest, is the model's choice of an empty CSR_MAP, its default (log 9). -/
def Obligations.SpecialStateWriters : Prop :=
  ∀ (i : Instr) (s t : State), exec i s = .next t →
    (∀ a, i ≠ .exec a) → (∀ o, i ≠ .myst o) → (∀ o, i ≠ .mystImmediate o) →
    t.tvec = s.tvec ∧ t.irqLines = s.irqLines ∧
    ((∀ a, i ≠ .mtvl a) → t.vl = s.vl) ∧
    ((∀ o, i ≠ .tlbrw o) → t.tlb = s.tlb) ∧
    ((∀ o, i ≠ .rwCoeff o) → t.coeff = s.coeff) ∧
    ((∀ v o, i ≠ .plot v o) → t.plotLog = s.plotLog) ∧
    ((∀ o, i ≠ .cache o) → t.imem = s.imem ∧ t.dcacheEnable = s.dcacheEnable) ∧
    ((∀ o, i ≠ .csrrw o) → (∀ o, i ≠ .csrrs o) → (∀ o, i ≠ .csrrc o) → t.csr = s.csr) ∧
    ((∀ b o, i ≠ .rte b o) → i ≠ .cRti → t.semaphore = s.semaphore) ∧
    ((∀ b a, i ≠ .pushq b a) → (∀ q a, i ≠ .pushqi q a) → (∀ a r, i ≠ .popq a r) →
      (∀ q r, i ≠ .popqi q r) → t.queues = s.queues) ∧
    ((∀ m, i ≠ .rex m) → t.badaddr = s.badaddr)

/-- The privilege stack changes in three ways only: an exception pushes 1010b, a return pops, and a REX
replaces the current entry by a mode that is lower than the current one (60 R755). The fourth way of 60 R755, a
CSR instruction on a number that CSR_MAP binds to PMSTACK, is absent because the model keeps CSR_MAP at its
default, empty (log 9, DESIGN CHOICE). -/
def Obligations.PrivilegeStackChanges : Prop :=
  ∀ (i : Instr) (s t : State), exec i s = .next t →
    t.pmstack = s.pmstack ∨ t.pmstack = s.pmstack <<< 4 ||| 0xa#64 ∨ t.pmstack = s.pmstack >>> 4 ∨
      ∃ tm : BitVec 2, tm.toNat < s.mode.index.val ∧
        t.pmstack = (s.pmstack &&& ~~~0xf#64) ||| (tm.setWidth 64 <<< 1)

/-! ### Registers and memory -/

/-- x0 reads as zero and a write to it has no effect; another register holds what was written, and a
write changes no other register (10 R20, R21). -/
def Obligations.ScalarRegisters : Prop :=
  ∀ (s : State) (r q : BitVec 5) (a : Word),
    s.readX 0#5 = 0#64 ∧ s.writeX 0#5 a = s ∧ (r ≠ 0#5 → (s.writeX r a).readX r = a) ∧
      (q ≠ r → (s.writeX r a).readX q = s.readX q)

/-- MemRead: bits 8k+7:8k of the n-byte value at an address are the byte at address + k; the bits above it
are 0 (20 R75). -/
def Obligations.MemoryRead : Prop :=
  ∀ (m : List Host.Cell) (a : Word) (n : Nat), n ≤ 8 →
    (∀ k < n, (memRead m a n).extractLsb' (8 * k) 8 = byteAt m (a + BitVec.ofNat 64 k)) ∧
      memRead m a n = Word.zextLow (8 * n) (memRead m a n)

/-- MemWrite: the byte at address + k becomes v[8k+7:8k], for k below n (20 R76); no other byte changes,
and the canonical form is kept. -/
def Obligations.MemoryWrite : Prop :=
  ∀ (m : List Host.Cell) (a : Word) (n : Nat) (v : Word), n ≤ 8 → Memory.wf m = true →
    Stored m (memWrite m a n v) a n v ∧ Memory.wf (memWrite m a n v) = true

/-! ### Exceptions, modes, control registers -/

/-- `raise(c)`: PMSTACK is pushed with 1010b, cause[4], EIP and IP are set, and nothing else changes; the
new mode is debug with interrupts disabled, and the interrupted entry stands in bits 7:4 (60 R740). EIP is the
address of the group's first modifier word, or of the instruction where it has none (60 R742, 30 R128). In a
PMSTACK entry bit 0 is the enable, bit 3 debug mode, and else bits 2:1 are the mode (10 R35). -/
def Obligations.ExceptionEntry : Prop :=
  ∀ (s : State) (c : Word), Raises (.next (s.raiseExc c)) s c ∧ (s.raiseExc c).mode = .debug ∧
    (s.raiseExc c).ie = false ∧ (s.raiseExc c).pmstack.extractLsb' 4 4 = s.pmstack.extractLsb' 0 4 ∧
    (∀ a, s.mods.start = some a → (s.raiseExc c).eip = a) ∧ (s.mods.start = none → (s.raiseExc c).eip = s.ip) ∧
    s.ie = s.pmstack.getLsbD 0 ∧
    s.mode.index.val = if s.pmstack.getLsbD 3 then 4 else (s.pmstack.extractLsb' 1 2).toNat

/-- BRK and c.BRK raise with the cause in the word (46 R541, 48 R674). -/
def Obligations.Breakpoints : Prop :=
  (∀ (s : State) (cause : BitVec 8), s.scalarReady → Raises (exec (.brk cause) s) s (cause.setWidth 64)) ∧
  ∀ (s : State) (cause : BitVec 7), s.mods.start = none → Raises (exec (.cBrk cause) s) s (cause.setWidth 64)

/-- RTE pops PMSTACK, clears semaphore 0 and the one B names modulo 64, and goes to EIP plus the offset, in
every mode; c.RTI is RTE with #0 and offset 0. Nothing else changes. The pop puts back the enable of the
interrupted entry, and where that is 1 an interrupt that is pending is taken next; the entry shifted in is
0, so sixteen pops leave user mode with interrupts off (60 R757). -/
def Obligations.ExceptionReturn : Prop :=
  (∀ (s : State) (b : OSpec) (offset : BitVec 12) (n : Word), s.scalarReady →
    scalarSource (·.setWidth 64) s b = some n →
    ∃ sem : Vector Bool 64,
      (∀ k : Fin 64, sem[k] = if k.val = 0 ∨ k.val = n.toNat % 64 then false else s.semaphore[k]) ∧
      exec (.rte b offset) s = .next { s with
        pmstack := s.pmstack >>> 4, semaphore := sem, ip := s.eip + offset.setWidth 64, mods := Mods.none }) ∧
  (∀ s : State, s.mods.start = none →
    exec .cRti s = .next { s with
      pmstack := s.pmstack >>> 4, semaphore := s.semaphore.set 0 false, ip := s.eip, mods := Mods.none }) ∧
  (∀ (s t : State) (b : OSpec) (offset : BitVec 12) (lines : List IrqSample), s.scalarReady →
    s.waiting = false → exec (.rte b offset) s = .next t → (∀ r, b ≠ .v r) →
    t.ie = s.pmstack.getLsbD 4 ∧
      (s.pmstack.getLsbD 4 = true → ({ t with irqLines := lines } : State).irq.level ≠ 0#4 →
        ({ t with irqLines := lines } : State).interruptTaken = true)) ∧
  (∀ p : Word, (fun q : Word => q >>> 4)^[16] p = 0#64) ∧
  ∀ s : State, s.pmstack = 0#64 → s.mode = .user ∧ s.ie = false

/-- A BRK and then an RTE with offset 9 goes on after the BRK in the interrupted mode: the general
registers, VL and memory are as before, and PMSTACK has only lost its oldest entry (60 R741, R757). -/
def Obligations.BreakThenReturn : Prop :=
  ∀ (s t u : State) (cause : BitVec 8), s.mods = Mods.none →
    exec (.brk cause) s = .next t → exec (.rte (.imm 0#6) 9#12) t = .next u →
    u.ip = s.ip + 9#64 ∧ u.mode = s.mode ∧ u.ie = s.ie ∧
      u.pmstack = s.pmstack &&& 0x0fffffffffffffff#64 ∧ u.x = s.x ∧ u.v = s.v ∧ u.vm = s.vm ∧ u.vl = s.vl ∧
      u.mem = s.mem

/-- REX to a lower mode copies cause and badaddr, replaces the current PMSTACK entry by that mode with
interrupts disabled and goes to the mode's trap vector; to the same or a higher mode it falls through
(46 R566, 60 R756; REX_ENABLE at its default). -/
def Obligations.Redirection : Prop :=
  ∀ (s : State) (tm : BitVec 2), s.scalarReady →
    (tm.toNat < s.mode.index.val → ∃ h : tm.toNat < 5,
      exec (.rex tm) s = .next { s with
        cause := s.cause.set tm.toNat s.cause[s.mode.index]
        badaddr := s.badaddr.set tm.toNat s.badaddr[s.mode.index]
        pmstack := (s.pmstack &&& ~~~0xf#64) ||| (tm.setWidth 64 <<< 1)
        ip := s.tvec[tm.toNat]
        mods := Mods.none }) ∧
    (s.mode.index.val ≤ tm.toNat → OnlyIp (exec (.rex tm) s) s (s.ip + 9#64))

/-- A CSR instruction in a mode lower than Regno[15:12] raises CAUSE_PRIV, reads included (46 R545, 60 R735).
Otherwise Rt gets the old value, CSRRD changes no CSR, and CSRRW, CSRRS and CSRRC write A, old | A and
old & ~A to the one CSR named (46 R546 to R549; CSR_MAP at its default, empty). -/
def Obligations.CsrInstructions : Prop :=
  ∀ (s : State) (o : Csr), s.scalarReady →
    (s.mode.index.val < (o.regno.extractLsb' 12 4).toNat →
      ∀ i ∈ [Instr.csrrd o, .csrrw o, .csrrs o, .csrrc o],
        Raises (exec i s) s (Config.causePriv.setWidth 64)) ∧
    ((o.regno.extractLsb' 12 4).toNat ≤ s.mode.index.val → sparseWf 0 65536 s.csr = true →
      ScalarResult (exec (.csrrd o) s) s (s.ip + 9#64) o.rt (sparseGet s.csr o.regno.toNat) ∧
      ∀ p ∈ ([(Instr.csrrw o, s.readX o.ra),
          (.csrrs o, sparseGet s.csr o.regno.toNat ||| s.readX o.ra),
          (.csrrc o, sparseGet s.csr o.regno.toNat &&& ~~~(s.readX o.ra))] : List (Instr × Word)),
        ∃ c, (∀ n : BitVec 16, sparseGet c n.toNat = if n = o.regno then p.2 else sparseGet s.csr n.toNat) ∧
          ScalarResult (exec p.1 s) { s with csr := c } (s.ip + 9#64) o.rt (sparseGet s.csr o.regno.toNat))

/-- PFI and c.PFI: with the level 0 they only go on; otherwise PFI writes the cause word to Rt and both
enter the exception, whatever the enable bit (46 R565, 48 R676, 60 R751). WFI and c.WFI: with the level not
0 they go on; with the level 0 the core stays at the instruction in the waiting state (46 R568, 48 R677,
60 R752). PFI and RTE of a vector register raise Unimplemented. -/
def Obligations.InterruptPolling : Prop :=
  ∀ (s : State) (rt : BitVec 5), s.scalarReady →
    (s.irq.level = 0#4 →
      OnlyIp (exec (.pfi (.x rt)) s) s (s.ip + 9#64) ∧ exec .wfi s = .next { s with waiting := true } ∧
      (s.mods.start = none →
        OnlyIp (exec .cPfi s) s (s.ip + 5#64) ∧ exec .cWfi s = .next { s with waiting := true })) ∧
    (s.irq.level ≠ 0#4 →
      let word := s.irq.level.setWidth 64 <<< 8 ||| s.irq.cause.setWidth 64
      Raises (exec (.pfi (.x rt)) s) (s.writeX rt word) word ∧
      OnlyIp (exec .wfi s) { s with waiting := false } (s.ip + 9#64) ∧
      (s.mods.start = none →
        Raises (exec .cPfi s) s word ∧ OnlyIp (exec .cWfi s) { s with waiting := false } (s.ip + 5#64))) ∧
    Unimplemented (exec (.pfi (.v rt)) s) s ∧ ∀ offset, Unimplemented (exec (.rte (.v rt) offset) s) s

/-- NOP, SYNC, FSYNC and c.SYNC only go on to the next instruction (30 R141, 46 R572, 42 R380, 48 R678). A type code
that does not agree with the v bit, in FSYNC's word or in an IMOD or STRIDE word before NOP, SYNC or FSYNC, raises
Unimplemented (30 R130; that the rule reaches operands the instruction does not use is log 17). -/
def Obligations.NoOperations : Prop :=
  ∀ s : State, s.mods.brmod = none →
    (∀ v, if s.modsLegal v = true then OnlyIp (exec (.nop v) s) s (s.ip + 9#64)
      else Unimplemented (exec (.nop v) s) s) ∧
    (if s.modsLegal false = true then OnlyIp (exec .sync s) s (s.ip + 9#64) else Unimplemented (exec .sync s) s) ∧
    (∀ v o, if (o.a.legal v && o.t.agrees v && s.modsLegal v) = true
      then OnlyIp (exec (.fsync v o) s) s (s.ip + 9#64) else Unimplemented (exec (.fsync v o) s) s) ∧
    (s.mods.start = none → OnlyIp (exec .cSync s) s (s.ip + 5#64))

/-! ### Queues and the TLB -/

/-- PUSHQ and PUSHQI append the value of Ra to the queue unless it is full, and change nothing else; the
queue is the value of Rb modulo NQUEUE, or Qno6 (46 R555 to R557). POPQ and POPQI: Rt gets the oldest value
of the queue, which is removed, or 0 from an empty queue (46 R558, R559). PEEKQ and PEEKQI give the oldest
value or 0; STATQ and STATQI give the status word: bit 63 empty, bit 62 data valid, bits 9:0 the count
(46 R560 to R563). A vector register raises Unimplemented (log 16), and a word whose field for an operand it does not
have, Rt of a push and Rb of the others, has type code 1 lies in no cell of the maps (30 R130; log 17). -/
def Obligations.HardwareQueues : Prop :=
  ∀ (s : State) (q : BitVec 6) (ra rt r : BitVec 5) (b : OSpec) (a t : RSpec), s.scalarReady →
    let l : List Word := s.queues[q.toNat]'q.isLt
    (∀ i, i = .pushqi q (.x ra) ∨
        (i = .pushq b (.x ra) ∧ ∃ n, scalarSource (·.signExtend 64) s b = some n ∧ q.toNat = n.toNat % 64) →
      ∃ qs : Vector (List Word) 64,
        (∀ p : Fin 64, qs[p] =
          if p.val = q.toNat ∧ (l).length < 1023 then l ++ [s.readX ra] else s.queues[p]) ∧
        exec i s = .next { s with queues := qs, ip := s.ip + 9#64, mods := Mods.none }) ∧
    (∀ i, i = .popqi q (.x rt) ∨ (i = .popq (.x ra) (.x rt) ∧ q.toNat = (s.readX ra).toNat % 64) →
      ∃ qs : Vector (List Word) 64,
        (∀ p : Fin 64, qs[p] = if p.val = q.toNat then (l).drop 1 else s.queues[p]) ∧
        ScalarResult (exec i s) { s with queues := qs } (s.ip + 9#64) rt ((l)[0]?.getD 0#64)) ∧
    (∀ i, i = .peekqi q (.x rt) ∨ (i = .peekq (.x ra) (.x rt) ∧ q.toNat = (s.readX ra).toNat % 64) →
      ScalarResult (exec i s) s (s.ip + 9#64) rt ((l)[0]?.getD 0#64)) ∧
    ((l).length ≤ 1023 → ∀ i, i = .statqi q (.x rt) ∨
        (i = .statq (.x ra) (.x rt) ∧ q.toNat = (s.readX ra).toNat % 64) →
      ScalarResult (exec i s) s (s.ip + 9#64) rt
        (BitVec.ofBool (l == []) ++ BitVec.ofBool (l != []) ++
          BitVec.ofNat 62 (l).length)) ∧
    (∀ w : BitVec 36, w.extractLsb' 0 8 = 0x07#8 →
      (w.extractLsb' 29 7 ∈ [0x08#7, 0x0c#7] ∧ w.getLsbD 13 = true ∨
        w.extractLsb' 29 7 ∈ [0x09#7, 0x0a#7, 0x0b#7, 0x0d#7, 0x0e#7, 0x0f#7] ∧ w.extractLsb' 25 2 = 1#2) →
      ∃ e, decode w = .error e) ∧
    ∀ i ∈ [Instr.pushqi q (.v r), .pushq b (.v r), .pushq (.v r) a, .popqi q (.v r), .popq (.v r) t,
        .popq a (.v r), .peekqi q (.v r), .peekq (.v r) t, .peekq a (.v r), .statqi q (.v r), .statq (.v r) t,
        .statq a (.v r)],
      Unimplemented (exec i s) s

/-- TLBRW: Rt gets the entry that way A[11:10] and number A[9:0] select, and the entry becomes B only if
A[63] is 1; every other entry is kept (46 R575). A vector register or a constant raises Unimplemented
(log 16). -/
def Obligations.TlbReadWrite : Prop :=
  ∀ (s : State) (o : R2), s.scalarReady → sparseWf 0 4096 s.tlb = true →
    match o.b, o.a, o.t with
    | .x rb, .x ra, .x rt =>
      ∃ l, (∀ way entry : Nat, way < 4 → entry < 1024 → sparseGet l (way * 1024 + entry) =
          if (s.readX ra).getLsbD 63 = true ∧ way = ((s.readX ra).extractLsb' 10 2).toNat ∧
            entry = ((s.readX ra).extractLsb' 0 10).toNat then s.readX rb
          else sparseGet s.tlb (way * 1024 + entry)) ∧
        ScalarResult (exec (.tlbrw o) s) { s with tlb := l } (s.ip + 9#64) rt
          (sparseGet s.tlb
            (((s.readX ra).extractLsb' 10 2).toNat * 1024 + ((s.readX ra).extractLsb' 0 10).toNat))
    | _, _, _ => Unimplemented (exec (.tlbrw o) s) s

/-! ### Modifiers, EXEC and MYST -/

/-- A modifier word is kept for the instruction that follows, the group's address is that of its first
word, and IP goes on by nine nybbles; the second of one kind raises Unimplemented (30 R120 to R124, R128). -/
def Obligations.ModifierWords : Prop :=
  ∀ (s : State) (v : Bool) (p : BitVec 28) (im : ImodOps) (br : BrmodOps) (st : StrideOps) (l : BitVec 30),
    ∀ row ∈ ([(Instr.exi0 p, s.mods.exi[0].isSome, { s.mods with exi := s.mods.exi.set 0 (some p) }),
        (.exi1 p, s.mods.exi[1].isSome, { s.mods with exi := s.mods.exi.set 1 (some p) }),
        (.exi2 p, s.mods.exi[2].isSome, { s.mods with exi := s.mods.exi.set 2 (some p) }),
        (.exi3 p, s.mods.exi[3].isSome, { s.mods with exi := s.mods.exi.set 3 (some p) }),
        (.exi4 p, s.mods.exi[4].isSome, { s.mods with exi := s.mods.exi.set 4 (some p) }),
        (.imod v im, s.mods.imod.isSome, { s.mods with imod := some im }),
        (.brmod br, s.mods.brmod.isSome, { s.mods with brmod := some br }),
        (.stride v st, s.mods.stride.isSome, { s.mods with stride := some st }),
        (.reglist l, s.mods.reglist.isSome, { s.mods with reglist := some l })] :
        List (Instr × Bool × Mods)),
      (row.2.1 = true → Unimplemented (exec row.1 s) s) ∧
      (row.2.1 = false →
        exec row.1 s = .next { s with
          mods := { row.2.2 with start := some (s.mods.start.getD s.ip) }, ip := s.ip + 9#64 })

/-- EXEC runs the instruction whose word stands in bits 35:0 of Ra, at its own address and with no
modifier; the modifiers before EXEC, BRMOD among them, are ignored. A modifier, EXEC, MYST, a 20-bit word or a
blank one raises Unimplemented (46 R550). With the word of ADD it adds. R550 prints `has a root in 70h..7Fh (20-bit
forms)`; the first clause runs the vector stores F2h, F3h, F6h and F7h, whose roots are 72h, 73h, 76h and 77h, and
that, as the last clause on a vector register, is the model's reading: log 19 (DEDUCED). So is the EIP of an exception in
the word run, clauses 1 to 3, where modifiers precede EXEC: the address of the EXEC word (60 R742), not the `ip` of 46 R550,
which would be that of the first modifier (log 19). -/
def Obligations.ExecRunsRegister : Prop :=
  ∀ (s : State) (ra : BitVec 5),
    (∀ i, decode ((s.readX ra).extractLsb' 0 36) = .ok i → i.runsInExec = true →
      exec (.exec (.x ra)) s = exec i { s with mods := Mods.none } ∧ ∃ t, exec (.exec (.x ra)) s = .next t) ∧
    (∀ i, decode ((s.readX ra).extractLsb' 0 36) = .ok i → i.runsInExec = false →
      Unimplemented (exec (.exec (.x ra)) s) { s with mods := Mods.none }) ∧
    (∀ e, decode ((s.readX ra).extractLsb' 0 36) = .error e →
      Unimplemented (exec (.exec (.x ra)) s) { s with mods := Mods.none }) ∧
    (∀ p q rt : BitVec 5,
      (s.readX ra).extractLsb' 0 36 = 0x04#7 ++ 0#2 ++ 0#2 ++ p ++ 0#1 ++ q ++ 0#1 ++ rt ++ 0#1 ++ 0x02#7 →
      ScalarResult (exec (.exec (.x ra)) s) s (s.ip + 9#64) rt (s.readX q + s.readX p)) ∧
    Unimplemented (exec (.exec (.v ra)) s) s

/-- The roots that are decoded in the plain RI format (46 R551). -/
def Sys2Proof.riRoots : List (BitVec 7) :=
  [0x04, 0x05, 0x06, 0x08, 0x09, 0x0a, 0x0e, 0x10, 0x11, 0x12, 0x15, 0x16, 0x17, 0x18, 0x19, 0x1a, 0x1b,
    0x20, 0x21, 0x23, 0x26, 0x27, 0x28, 0x29, 0x2a, 0x2b]

/-- The function codes of the R2 group other than MYST's own (30 R134, 46 R552), 0Dh, the duplicate of MULF, among
them (log 19). -/
def Sys2Proof.r2Funcs : List (BitVec 7) :=
  [0x00, 0x01, 0x02, 0x04, 0x05, 0x06, 0x08, 0x09, 0x0a, 0x0d, 0x0e, 0x0f, 0x10, 0x11, 0x12, 0x13, 0x14, 0x15,
    0x16, 0x17, 0x18, 0x1b, 0x1c, 0x1d, 0x1e, 0x20, 0x23, 0x26, 0x27, 0x28, 0x29, 0x2c, 0x2d, 0x2e, 0x2f, 0x30,
    0x31, 0x32, 0x33, 0x34, 0x38, 0x39, 0x3a, 0x3b, 0x3e, 0x40, 0x41, 0x42, 0x43, 0x44, 0x48, 0x49, 0x4a, 0x4b,
    0x4c]

/-- MYST (46 R551, R552) with the low 36 bits of IMOD's operand D, a scalar register or a sign-extended constant
(log 19). RI form: MYST's word with its root replaced by D's is run, where that root is of the plain RI format.
R2 form: MYST's word with bits 35:27 replaced by D's is run, where D is of the R2 group with a defined function
code that is not MYST's own. Each then answers the next state of the instruction that word decodes to, with the
modifiers in force and an exception recorded at MYST's own address. Another D, a vector register as D or as another
operand of IMOD or STRIDE (30 R130; log 17), and a MYST without IMOD raise Unimplemented; so does, at MYST's own
address, a word that lies in a blank cell. With D the word of an ADD they add MYST's own operands. -/
def Obligations.MystRunsWord : Prop :=
  ∀ (s : State) (o : RI) (p : R2), s.mods.brmod = none →
    (s.mods.imod = none → Unimplemented (exec (.mystImmediate o) s) s ∧ Unimplemented (exec (.myst p) s) s) ∧
    (s.modsLegal false = false → Unimplemented (exec (.mystImmediate o) s) s ∧ Unimplemented (exec (.myst p) s) s) ∧
    ∀ im, s.mods.imod = some im → s.modsLegal false = true →
      match scalarSource (·.signExtend 64) s im.d with
      | none => Unimplemented (exec (.mystImmediate o) s) s ∧ Unimplemented (exec (.myst p) s) s
      | some w =>
        let d : BitVec 36 := w.extractLsb' 0 36
        let own : State := { s with mods := { s.mods with start := none } }
        (rootOf d ∉ riRoots → Unimplemented (exec (.mystImmediate o) s) s) ∧
        (rootOf d ∈ riRoots → match decode (o.imm ++ o.a.enc ++ o.t.enc ++ 0#1 ++ rootOf d) with
          | .ok i => ∃ t, exec i own = .next t ∧ exec (.mystImmediate o) s = .next t
          | .error _ => Unimplemented (exec (.mystImmediate o) s) own) ∧
        (rootOf d ≠ 0x02#7 ∨ funcOf d ∉ r2Funcs → Unimplemented (exec (.myst p) s) s) ∧
        (rootOf d = 0x02#7 → funcOf d ∈ r2Funcs →
          match decode (d.extractLsb' 27 9 ++ p.b.enc ++ p.a.enc ++ p.t.enc ++ 0#1 ++ 0x02#7) with
          | .ok i => ∃ t, exec i own = .next t ∧ exec (.myst p) s = .next t
          | .error _ => Unimplemented (exec (.myst p) s) own) ∧
        (rootOf d = 0x04#7 → s.mods.exi = Mods.none.exi → ∀ k ra rt, o = ⟨k, .x ra, .x rt⟩ →
          ScalarResult (exec (.mystImmediate o) s) s (s.ip + 9#64) rt (s.readX ra + k.signExtend 64)) ∧
        (rootOf d = 0x02#7 → funcOf d = 0x04#7 → ∀ rb ra rt, p = ⟨.x rb, .x ra, .x rt⟩ →
          ScalarResult (exec (.myst p) s) s (s.ip + 9#64) rt (s.readX ra + s.readX rb))

/-- The conditional branches, which alone may follow a BRMOD word (45 R483). -/
def Sys2Proof.takesBrmod : Instr → Bool
  | .beq _ | .bne _ | .blt _ | .bge _ | .bltu _ | .bgeu _ | .bbs _ | .fbeq _ | .fbne _ => true
  | _ => false

/-- The operands of the IMOD and STRIDE words before the instruction that name a vector register. -/
def Sys2Proof.VectorModifier (s : State) : Prop :=
  (∃ im r, s.mods.imod = some im ∧ (im.c = .v r ∨ im.d = .v r)) ∨ ∃ st r, s.mods.stride = some st ∧ st.c = .v r

/-- A BRMOD word before anything but a conditional branch or a further modifier raises Unimplemented
(45 R483), except before EXEC, which ignores it (46 R550); and so does any modifier before a 20-bit word
(48 R672). A vector register in an IMOD or STRIDE word raises it before a word with v = 0, used or not (30 R130;
log 17), except before EXEC and the {VM} group, root 3Eh, which ignore the modifiers (46 R550, 47 R601). -/
def Obligations.MisplacedModifiers : Prop :=
  ∀ (i : Instr) (s : State),
    (s.mods.brmod.isSome = true → i.isShort = false → i.isModifier = false → takesBrmod i = false →
      (∀ a, i ≠ .exec a) → Unimplemented (exec i s) s) ∧
    (s.mods.start.isSome = true → i.isShort = true → Unimplemented (exec i s) s) ∧
    (VectorModifier s → i.isShort = false → i.isModifier = false → i.encode.getLsbD 7 = false →
      i.encode.extractLsb' 0 7 ≠ 0x3e#7 → (∀ a, i ≠ .exec a) → Unimplemented (exec i s) s) ∧
    (s.modsLegal false = false ↔ VectorModifier s) ∧ s.modsLegal true = true

/-- The rows of the opcode table that raise Unimplemented: names without a meaning in the sources
(41 R319 to R323, 42 R380 to R382, 44 R413, R438, 45 R495, 46 R590, 48 R703 to R706), and those that wait
for a parameter without a default (42 R343, 48 R697, R705). -/
def Sys2Proof.unimplementedRow : Instr → Bool
  | .tst _ _ | .ptrinc _ _ | .mulfDuplicate _ _ | .sand _ | .sor _ | .setGroup _ | .llal | .llah
  | .lpal | .lpah | .setkey | .setto | .getto | .getzl | .mvseg | .csave | .crestore | .frsqrt _ _
  | .fman _ _ | .fs2d _ _ | .fs2q _ _ | .fd2q _ _ | .fstat _ _ | .ftx _ _ | .fcx _ _ | .fex _ _
  | .fdx _ _ | .frm _ _ | .fres _ _ | .fsigmoid _ _ | .fd2s _ _ | .fq2s _ _ | .fq2d _ _
  | .fclass _ _ | .unord _ _ | .scaleb _ _ | .frem _ _ | .fnxt _ _ | .fsetm _ _ | .sgninv _ _
  | .sgnand _ _ | .sgnor _ _ | .sgnxor _ _ | .sgnxnor _ _ | .fclassDyadic _ _ | .f4Group _
  | .dfsqrt _ _ _ | .psqrt _ _ _ | .dfmin _ _ | .dfmax _ _ | .dfadd _ _ | .dfsub _ _ | .dfmul _ _
  | .dfdiv _ _ | .dfrem _ _ | .dfnxt _ _ | .dfcmp _ _ | .dfseq _ _ | .dfslt _ _ | .dfsle _ _
  | .dfsne _ _ | .dfcmpb _ _ | .dfsetm _ _ | .padd _ _ | .psub _ _ | .pmul _ _ | .pdiv _ _
  | .psle _ _ | .df3Group _ | .df4Group _ | .pst3Group _ | .pst4Group _ | .blank43h | .blank44h
  | .blank45h | .blank4ch | .loadFunc4Is4At60h _ | .loadFunc4Is5At60h _ | .loadFunc4Is4At61h _
  | .loadFunc4Is5At61h _ | .loadFunc4Is4At64h _ | .loadFunc4Is5At64h _ | .loadFunc4Is4At65h _
  | .loadFunc4Is5At65h _ | .cSub _ _ | .cOr _ _ | .cXor _ _ | .cNand _ _ | .cNor _ _ | .c7chUnlisted
  | .c7dhReserved | .cLdmSp _ _ | .c7fhNoRow | .scalebDecimal _ _ | .cpysgnDecimal _ _
  | .sgninvDecimal _ _ | .sgnandDecimal _ _ | .sgnorDecimal _ _ | .sgnxorDecimal _ _
  | .sgnxnorDecimal _ _ | .fclassDecimal _ _ | .loadFunc4Is13At64h _ | .loadFunc4Is13At65h _
  | .c74hReserved => true
  | _ => false

/-- Each of those rows raises Unimplemented in every state (30 R140, 60 R736). -/
def Obligations.UnimplementedRows : Prop :=
  ∀ (i : Instr) (s : State), unimplementedRow i = true → Unimplemented (exec i s) s


/-! ### Integer operations -/

/-- One-source integer operations, R1 format (40 R204, R218 to R221, 41 R263, R265, R266, R295, R298 to
R300, R307 to R309). -/
def Sys2Proof.oneSourceInteger : List ((Bool → R1 → Instr) × (Word → Word)) :=
  [(.cntlz, fun a => if a = 0#64 then 64#64 else BitVec.ofNat 64 (63 - Nat.log2 a.toNat)),
   (.cntlo, fun a => if ~~~a = 0#64 then 64#64 else BitVec.ofNat 64 (63 - Nat.log2 (~~~a).toNat)),
   (.cntpop, fun a => BitVec.ofNat 64 ((List.range 64).filter a.getLsbD).length),
   (.com, fun a => ~~~a),
   (.not, fun a => if a = 0#64 then 1#64 else 0#64),
   (.neg, fun a => BitVec.ofInt 64 (-a.toInt)),
   (.abs, fun a => BitVec.ofInt 64 |a.toInt|),
   (.nabs, fun a => BitVec.ofInt 64 (-|a.toInt|)),
   (.sqrt, fun a => BitVec.ofNat 64 (Nat.sqrt a.toNat)),
   (.zxb, fun a => a &&& 0xff#64),
   (.zxw, fun a => a &&& 0xffff#64),
   (.zxt, fun a => a &&& 0xffffffff#64),
   (.sxb, fun a => (a.extractLsb' 0 8).signExtend 64),
   (.sxw, fun a => (a.extractLsb' 0 16).signExtend 64),
   (.sxt, fun a => (a.extractLsb' 0 32).signExtend 64)]

/-- The one-source integer operations follow the element rule with the mask in their word (30 R129). -/
def Obligations.OneSourceInteger : Prop :=
  ∀ row ∈ oneSourceInteger, ∀ (s : State) (v : Bool) (o : R1), s.mods.brmod = none →
    ElementRule (exec (row.1 v o) s) s v o.t (o.a.legal v) (s.readM o.m, o.z) fun e => row.2 (o.a.value s e)

/-- Two-source operations of the R2 format, by the extension of a constant (30 R104) and the result (40, 41). -/
def Sys2Proof.twoSourceInteger : List ((Bool → R2 → Instr) × (BitVec 6 → Word) × (Word → Word → Word)) :=
  [(.and, (·.signExtend 64), fun a b => a &&& b),
   (.or, (·.signExtend 64), fun a b => a ||| b),
   (.xor, (·.signExtend 64), fun a b => a ^^^ b),
   (.nand, (·.signExtend 64), fun a b => ~~~(a &&& b)),
   (.nor, (·.signExtend 64), fun a b => ~~~(a ||| b)),
   (.xnor, (·.signExtend 64), fun a b => ~~~(a ^^^ b)),
   (.add, (·.signExtend 64), fun a b => BitVec.ofInt 64 (a.toInt + b.toInt)),
   (.sub, (·.signExtend 64), fun a b => BitVec.ofInt 64 (a.toInt - b.toInt)),
   (.dif, (·.signExtend 64), fun a b => BitVec.ofInt 64 |(a - b).toInt|),
   (.cmp, (·.signExtend 64), fun a b => if a.slt b then BitVec.allOnes 64 else if a = b then 0#64 else 1#64),
   (.min, (·.signExtend 64), fun a b => if a.toInt ≤ b.toInt then a else b),
   (.max, (·.signExtend 64), fun a b => if a.toInt ≤ b.toInt then b else a),
   (.seq, (·.signExtend 64), fun a b => if a = b then 1#64 else 0#64),
   (.sne, (·.signExtend 64), fun a b => if a = b then 0#64 else 1#64),
   (.slt, (·.signExtend 64), fun a b => if a.slt b then 1#64 else 0#64),
   (.sge, (·.signExtend 64), fun a b => if b.sle a then 1#64 else 0#64),
   (.sltu, (·.setWidth 64), fun a b => if a < b then 1#64 else 0#64),
   (.sgeu, (·.setWidth 64), fun a b => if b ≤ a then 1#64 else 0#64),
   (.mulu, (·.setWidth 64), fun a b => BitVec.ofNat 64 (a.toNat * b.toNat)),
   (.mulsu, (·.setWidth 64), fun a b => BitVec.ofInt 64 (a.toInt * (b.toNat : Int))),
   (.mulf, (·.setWidth 64), fun a b => BitVec.ofNat 64 ((a.toNat % 2 ^ 24) * (b.toNat % 2 ^ 16))),
   (.mulh, (·.signExtend 64), fun a b => (BitVec.ofInt 128 (a.toInt * b.toInt)).extractLsb' 64 64),
   (.mulsuh, (·.setWidth 64), fun a b => (BitVec.ofInt 128 (a.toInt * (b.toNat : Int))).extractLsb' 64 64),
   (.muluh, (·.setWidth 64), fun a b => (BitVec.ofNat 128 (a.toNat * b.toNat)).extractLsb' 64 64),
   (.sll, (·.setWidth 64), fun a b => BitVec.ofNat 64 (a.toNat * 2 ^ (b.toNat % 64))),
   (.srl, (·.setWidth 64), fun a b => BitVec.ofNat 64 (a.toNat / 2 ^ (b.toNat % 64))),
   (.sra, (·.setWidth 64), fun a b => BitVec.ofInt 64 (a.toInt / 2 ^ (b.toNat % 64))),
   (.rol, (·.setWidth 64), fun a b => a <<< (b.toNat % 64) ||| a >>> (64 - b.toNat % 64)),
   (.ror, (·.setWidth 64), fun a b => a >>> (b.toNat % 64) ||| a <<< (64 - b.toNat % 64))]

/-- Shifts and rotates by the six-bit number in the word (41 R313 to R317). -/
def Sys2Proof.shiftsByNumber : List ((Bool → R2I → Instr) × (Word → Nat → Word)) :=
  [(.slli, fun a n => BitVec.ofNat 64 (a.toNat * 2 ^ n)),
   (.srli, fun a n => BitVec.ofNat 64 (a.toNat / 2 ^ n)),
   (.srai, fun a n => BitVec.ofInt 64 (a.toInt / 2 ^ n)),
   (.roli, fun a n => a <<< n ||| a >>> (64 - n)),
   (.rori, fun a n => a >>> n ||| a <<< (64 - n))]

/-- The two-source integer operations, and the shifts and rotates by a number in the word, follow the
element rule with the mask and zeroing bit of a pending IMOD word whose A[0] is 1, and else with every element
enabled (30 R120, R129). -/
def Obligations.TwoSourceInteger : Prop :=
  ∀ (s : State) (v : Bool),
    (∀ im, s.mods.imod = some im → im.a.getLsbD 0 = true → s.imodMask = (s.readM im.m, im.z)) ∧
    ((∀ im, s.mods.imod = some im → im.a.getLsbD 0 = false) → s.imodMask = (BitVec.allOnes 64, false)) ∧
    (s.mods.brmod = none →
    (∀ row ∈ twoSourceInteger, ∀ o : R2,
      ElementRule (exec (row.1 v o) s) s v o.t (o.a.legal v && o.b.legal v) s.imodMask fun e =>
        row.2.2 (o.a.value s e) (o.b.value row.2.1 s e)) ∧
    ∀ row ∈ shiftsByNumber, ∀ o : R2I,
      ElementRule (exec (row.1 v o) s) s v o.t (o.a.legal v) s.imodMask fun e =>
        row.2 (o.a.value s e) o.imm.toNat)

/-- Operations with a 16-bit constant, by its extension (30 R127) and the result (40, 41). -/
def Sys2Proof.immediateInteger : List ((Bool → RI → Instr) × ImmExt × (Word → Word → Word)) :=
  [(.addImmediate, .signed, fun a k => BitVec.ofInt 64 (a.toInt + k.toInt)),
   (.subfImmediate, .signed, fun a k => BitVec.ofInt 64 (k.toInt - a.toInt)),
   (.mulImmediate, .signed, fun a k => BitVec.ofInt 64 (a.toInt * k.toInt)),
   (.andImmediate, .ones, fun a k => a &&& k),
   (.orImmediate, .zeros, fun a k => a ||| k),
   (.xorImmediate, .zeros, fun a k => a ^^^ k),
   (.muluImmediate, .zeros, fun a k => BitVec.ofNat 64 (a.toNat * k.toNat)),
   (.mulsuImmediate, .zeros, fun a k => BitVec.ofInt 64 (a.toInt * (k.toNat : Int))),
   (.mulfImmediate, .zeros, fun a k => BitVec.ofNat 64 ((a.toNat % 2 ^ 24) * (k.toNat % 2 ^ 16))),
   (.seqImmediate, .signed, fun a k => if a = k then 1#64 else 0#64),
   (.sneImmediate, .signed, fun a k => if a = k then 0#64 else 1#64),
   (.sltImmediate, .signed, fun a k => if a.slt k then 1#64 else 0#64),
   (.sgtImmediate, .signed, fun a k => if k.slt a then 1#64 else 0#64),
   (.sltuImmediate, .zeros, fun a k => if a < k then 1#64 else 0#64),
   (.sgtuImmediate, .zeros, fun a k => if k < a then 1#64 else 0#64)]

/-- They follow the element rule with IMOD's mask. -/
def Obligations.ImmediateInteger : Prop :=
  ∀ row ∈ immediateInteger, ∀ (s : State) (v : Bool) (o : RI), s.mods.brmod = none →
    ElementRule (exec (row.1 v o) s) s v o.t (o.a.legal v) s.imodMask fun e =>
      row.2.2 (o.a.value s e) (s.imm16 row.2.1 o.imm)

/-- Constants: without EXI0 and EXI1 a 16-bit constant is extended by its instruction's rule and a displacement,
of 12 bits in a load and 11 in a store, by its sign (30 R127); EXI0 alone makes `{P0, F[10:0]}` sign-extended, and
EXI0 with EXI1 gives 64 bits of `{P1, P0, F[10:0]}`; EXI2 to EXI4 have no effect (30 R125). STRIDE puts its
Const15 directly above a displacement (30 R122). -/
def Obligations.ExtendedConstants : Prop :=
  ∀ (s : State) (c : BitVec 16) (d : BitVec 12) (b : BitVec 11) (k : ImmExt) (p0 p1 : BitVec 28) (st : StrideOps),
    (s.mods.exi[0] = none → s.mods.exi[1] = none →
      s.imm16 k c = (match k with
        | .signed => c.signExtend 64
        | .zeros => 0#48 ++ c
        | .ones => 0xffffffffffff#48 ++ c) ∧
      (s.mods.stride = none → s.displacement d = d.signExtend 64 ∧ s.displacement b = b.signExtend 64) ∧
      (s.mods.stride = some st → s.displacement d = (st.hi ++ d).signExtend 64 ∧
        s.displacement b = (st.hi ++ b).signExtend 64)) ∧
    (s.mods.exi[0] = some p0 → s.mods.exi[1] = none →
      s.imm16 k c = (p0 ++ c.extractLsb' 0 11).signExtend 64 ∧
      (s.mods.stride = none → s.displacement d = (p0 ++ d.extractLsb' 0 11).signExtend 64 ∧
        s.displacement b = (p0 ++ b).signExtend 64)) ∧
    (s.mods.exi[0] = some p0 → s.mods.exi[1] = some p1 →
      s.imm16 k c = (p1 ++ p0 ++ c.extractLsb' 0 11).setWidth 64 ∧
      (s.mods.stride = none → s.displacement d = (p1 ++ p0 ++ d.extractLsb' 0 11).setWidth 64 ∧
        s.displacement b = (p1 ++ p0 ++ b).setWidth 64))

/-- Divisions and remainders of the R2 format (40 R233, R244, R246, R248). -/
def Sys2Proof.registerDivisions : List ((Bool → R2 → Instr) × (BitVec 6 → Word) × (Word → Word → Word)) :=
  [(.divu, (·.setWidth 64), fun a b => a / b),
   (.rem, (·.signExtend 64), fun a b => a.srem b),
   (.remu, (·.setWidth 64), fun a b => a % b),
   (.remsu, (·.setWidth 64), fun a b => BitVec.ofInt 64 (a.toInt.tmod (b.toNat : Int)))]

/-- Divisions and remainders by a constant (40 R227, R230, R232, R243, R245, R247). -/
def Sys2Proof.immediateDivisions : List ((Bool → RI → Instr) × ImmExt × (Word → Word → Word)) :=
  [(.divImmediate, .signed, fun a b => a.sdiv b),
   (.divuImmediate, .zeros, fun a b => a / b),
   (.divsuImmediate, .zeros, fun a b => BitVec.ofInt 64 (a.toInt.tdiv (b.toNat : Int))),
   (.remImmediate, .signed, fun a b => a.srem b),
   (.remuImmediate, .zeros, fun a b => a % b),
   (.remsuImmediate, .zeros, fun a b => BitVec.ofInt 64 (a.toInt.tmod (b.toNat : Int)))]

/-- The divisions that never trap follow the element rule; where the divisor is not 0 the quotient is
rounded toward zero and the remainder has the dividend's sign, and where it is 0 the result is some word
(40 R257). DIVR divides its constant by the register (40 R229). -/
def Obligations.Divisions : Prop :=
  (∀ row ∈ registerDivisions, ∃ f : Word → Word → Word, (∀ a b, b ≠ 0#64 → f a b = row.2.2 a b) ∧
    ∀ (s : State) (v : Bool) (o : R2), s.mods.brmod = none →
      ElementRule (exec (row.1 v o) s) s v o.t (o.a.legal v && o.b.legal v) s.imodMask fun e =>
        f (o.a.value s e) (o.b.value row.2.1 s e)) ∧
  (∀ row ∈ immediateDivisions, ∃ f : Word → Word → Word, (∀ a b, b ≠ 0#64 → f a b = row.2.2 a b) ∧
    ∀ (s : State) (v : Bool) (o : RI), s.mods.brmod = none →
      ElementRule (exec (row.1 v o) s) s v o.t (o.a.legal v) s.imodMask fun e =>
        f (o.a.value s e) (s.imm16 row.2.1 o.imm)) ∧
  ∃ f : Word → Word → Word, (∀ a k, a ≠ 0#64 → f a k = k.sdiv a) ∧
    ∀ (s : State) (v : Bool) (o : RI), s.mods.brmod = none →
      ElementRule (exec (.divrImmediate v o) s) s v o.t (o.a.legal v) s.imodMask fun e =>
        f (o.a.value s e) (s.imm16 .signed o.imm)

/-- The operations that may trap: the extension of a constant, the cause of a trap under the enables in bits
28 (overflow) and 27 (zero divisor), and the result (40 R226, R231, 41 R262, 60 R732, R733). -/
def Sys2Proof.trappingInteger : List ((Bool → BitVec 2 → R2 → Instr) × (BitVec 6 → Word) ×
    (BitVec 2 → Word → Word → Option (BitVec 8)) × (Word → Word → Option Word)) :=
  [(.mul, (·.signExtend 64),
    fun opt a b => if opt.getLsbD 1 ∧ (a.toInt * b.toInt < -(2 ^ 63) ∨ 2 ^ 63 ≤ a.toInt * b.toInt)
      then some Config.causeOvf else none,
    fun a b => some (BitVec.ofInt 64 (a.toInt * b.toInt))),
   (.div, (·.signExtend 64),
    fun opt a b => if opt.getLsbD 0 ∧ b = 0#64 then some Config.causeDbz
      else if opt.getLsbD 1 ∧ a.toInt = -(2 ^ 63) ∧ b.toInt = -1 then some Config.causeOvf else none,
    fun a b => if b = 0#64 then none else some (BitVec.ofInt 64 (a.toInt.tdiv b.toInt))),
   (.divsu, (·.setWidth 64),
    fun opt _ b => if opt.getLsbD 0 ∧ b = 0#64 then some Config.causeDbz else none,
    fun a b => if b = 0#64 then none else some (BitVec.ofInt 64 (a.toInt.tdiv (b.toNat : Int))))]

/-- MUL, DIV and DIVSU. Scalar: a trap writes nothing and raises its cause; otherwise Rt gets the result, some
word where the divisor is 0. Vector: where no active element below VL traps the element rule holds; where e
is the lowest that does, the elements below e are written, those from e on are kept, and its cause is
raised (60 R741, R743). -/
def Obligations.TrappingArithmetic : Prop :=
  ∀ row ∈ trappingInteger, ∃ f : Word → Word → Word, (∀ a b w, row.2.2.2 a b = some w → f a b = w) ∧
    ∀ (s : State) (v : Bool) (opt : BitVec 2) (o : R2), s.mods.brmod = none →
      TrapRule (exec (row.1 v opt o) s) s v o.t (o.a.legal v && o.b.legal v) s.imodMask
        (fun e => row.2.2.1 opt (o.a.value s e) (o.b.value row.2.1 s e))
        fun e => f (o.a.value s e) (o.b.value row.2.1 s e)

/-- The bit-matrix products: an element of the result is the OR (or the XOR) of the products along a row of
A and a column of B, and MORT and MXORT transpose the result (40 R209 to R213; BMM_TRANSPOSE at its default).
Element [i][j] is bit 63 - (8i + j). PERM: byte k of the target is the byte of A that bits 3k+2:3k of the
selector name (41 R269 to R271). All follow the element rule. -/
def Obligations.BitMatricesAndBytes : Prop :=
  (∀ row ∈ ([(.mor, false, false), (.mxor, true, false), (.mort, false, true), (.mxort, true, true)] :
      List ((Bool → R2 → Instr) × Bool × Bool)),
    ∃ f : Word → Word → Word,
      (∀ a b i j, i < 8 → j < 8 →
        (f a b).getLsbD (63 - (8 * i + j)) =
          let p := if row.2.2 then j else i
          let q := if row.2.2 then i else j
          let n := ((List.range 8).filter fun k =>
            a.getLsbD (63 - (8 * p + k)) && b.getLsbD (63 - (8 * k + q))).length
          if row.2.1 then n % 2 == 1 else n != 0) ∧
      ∀ (s : State) (v : Bool) (o : R2), s.mods.brmod = none →
        ElementRule (exec (row.1 v o) s) s v o.t (o.a.legal v && o.b.legal v) s.imodMask fun e =>
          f (o.a.value s e) (o.b.value (·.signExtend 64) s e)) ∧
  ∃ f : Word → Word → Word,
    (∀ a sel k, k < 8 → (f a sel).extractLsb' (8 * k) 8 =
      a.extractLsb' (8 * (sel.extractLsb' (3 * k) 3).toNat) 8) ∧
    (∀ (s : State) (v : Bool) (o : R2), s.mods.brmod = none →
      ElementRule (exec (.perm v o) s) s v o.t (o.a.legal v && o.b.legal v) s.imodMask fun e =>
        f (o.a.value s e) (o.b.value (·.signExtend 64) s e)) ∧
    ∀ (s : State) (v : Bool) (o : RI), s.mods.brmod = none →
      ElementRule (exec (.permImmediate v o) s) s v o.t (o.a.legal v) s.imodMask fun e =>
        f (o.a.value s e) (s.imm16 .signed o.imm)

/-- `n` is the least index below `count` whose `w`-bit field of `a` is `key`, or -1 where there is none. -/
def Sys2Proof.FirstField (w count : Nat) (key : BitVec w) (a n : Word) : Prop :=
  (n.toNat < count ∧ a.extractLsb' (w * n.toNat) w = key ∧ ∀ k < n.toNat, a.extractLsb' (w * k) w ≠ key) ∨
    (n = BitVec.allOnes 64 ∧ ∀ k < count, a.extractLsb' (w * k) w ≠ key)

/-- A field search of `count` fields of `w` bits. A vector source with a scalar target searches the active
elements below VL in ascending order and answers `count * e + k` for field k of element e, or -1 (40 R216;
log 18); the other forms follow the element rule. -/
def Sys2Proof.FieldSearch (r : Out) (s : State) (w count : Nat) (v : Bool) (a t : RSpec) (keyLegal : Bool)
    (key : Fin 64 → BitVec w) : Prop :=
  match v, a, t with
  | true, .v ra, .x rt =>
    if keyLegal then
      let hit (e : Fin 64) (k : Nat) : Prop := e.val < s.vl.toNat ∧ s.imodMask.1.getLsbD e.val = true ∧
        k < count ∧ ((s.readV ra)[e]).extractLsb' (w * k) w = key e
      ∃ x : Word, ScalarResult r s (s.ip + 9#64) rt x ∧
        ((x = BitVec.allOnes 64 ∧ ∀ e k, ¬hit e k) ∨
          ∃ e k, hit e k ∧ x = BitVec.ofNat 64 (count * e.val + k) ∧
            ∀ d j, hit d j → count * e.val + k ≤ count * d.val + j)
    else Unimplemented r s
  | _, _, _ => ∃ f : Fin 64 → Word, (∀ e, FirstField w count (key e) (a.value s e) (f e)) ∧
    ElementRule r s v t (a.legal v && keyLegal) s.imodMask f

/-- BYTNDX, WYDNDX and U21NDX, register and constant forms: the index of the first byte, wyde or 21-bit field
of A that is the low bits of the second operand; BYTNDX's constant gives the low byte of its field whatever
modifier precedes (40 R214 to R216, 41 R301 to R304). -/
def Obligations.FieldSearches : Prop :=
  ∀ (s : State) (v : Bool) (o : R2) (b : BytI) (i : RI), s.mods.brmod = none →
    FieldSearch (exec (.bytndx v o) s) s 8 8 v o.a o.t (o.b.legal v)
      (fun e => (o.b.value (·.signExtend 64) s e).extractLsb' 0 8) ∧
    FieldSearch (exec (.wydndx v o) s) s 16 4 v o.a o.t (o.b.legal v)
      (fun e => (o.b.value (·.signExtend 64) s e).extractLsb' 0 16) ∧
    FieldSearch (exec (.u21ndx v o) s) s 21 3 v o.a o.t (o.b.legal v)
      (fun e => (o.b.value (·.signExtend 64) s e).extractLsb' 0 21) ∧
    FieldSearch (exec (.bytndxImmediate v b) s) s 8 8 v b.a b.t true
      (fun _ => b.imm.extractLsb' 0 8) ∧
    FieldSearch (exec (.wydndxImmediate v i) s) s 16 4 v i.a i.t true
      (fun _ => (s.imm16 .signed i.imm).extractLsb' 0 16) ∧
    FieldSearch (exec (.u21ndxImmediate v i) s) s 21 3 v i.a i.t true
      (fun _ => (s.imm16 .signed i.imm).extractLsb' 0 21)

/-! ### Operations with the IMOD operands C and D -/

/-- The second source, and IMOD's C and D, of the operations below; without IMOD C and D are 0 (30 R142). -/
def Sys2Proof.ternaryInteger :
    List ((Bool → R2 → Instr) × (BitVec 6 → Word) × (BitVec 6 → Word) × (Word → Word → Word → Word)) :=
  [(.mux, (·.signExtend 64), (·.signExtend 64), fun a b c => (a &&& b) ||| (~~~a &&& c)),
   (.sllp, (·.setWidth 64), (·.signExtend 64), fun a b c =>
     a <<< (b.toNat % 64) ||| c >>> (64 - b.toNat % 64)),
   (.ptrdif, (·.signExtend 64), (·.setWidth 64), fun a b c =>
     (BitVec.ofInt 64 |(a - b).toInt|) >>> (c.toNat % 32)),
   (.blend, (·.signExtend 64), (·.signExtend 64), fun a b c =>
     let mix (i : Nat) : BitVec 8 :=
       BitVec.ofNat 8 (((a.extractLsb' i 8).toNat * (c.extractLsb' 0 8).toNat +
         (b.extractLsb' i 8).toNat * (255 - (c.extractLsb' 0 8).toNat)) / 256)
     a.extractLsb' 24 40 ++ mix 16 ++ mix 8 ++ mix 0)]

/-- MUX, SLLP, SLLPI, PTRDIF and BLEND follow the element rule (40 R242, 41 R272, R291, R318, 43 R392). -/
def Obligations.TernaryOperations : Prop :=
  ∀ (s : State) (v : Bool), s.mods.brmod = none →
    (∀ row ∈ ternaryInteger, ∀ o : R2,
      ElementRule (exec (row.1 v o) s) s v o.t (o.a.legal v && o.b.legal v) s.imodMask
        fun e => row.2.2.2 (o.a.value s e) (o.b.value row.2.1 s e) (optValue row.2.2.1 s e s.specC)) ∧
    ∀ o : R2I, ElementRule (exec (.sllpi v o) s) s v o.t (o.a.legal v) s.imodMask fun e =>
      o.a.value s e <<< o.imm.toNat ||| optValue (·.signExtend 64) s e s.specC >>> (64 - o.imm.toNat)

/-- The field of `w + 1` bits, with `w` the low six bits of D, of the operations below. -/
def Sys2Proof.fieldBits (d : Word) : Nat := d.toNat % 64 + 1

/-- DEP, EXT, EXTU and FFO (40 R222 to R225, R235): DEP inserts the low bits of B at the offset C; EXT and
EXTU read the field from offset C mod 128 of `{B, A}`, sign- and zero-extended; FFO finds its highest 1. -/
def Obligations.BitFields : Prop :=
  ∃ dep ext extu ffo : Word → Word → Word → Word → Word,
    (∀ a b c d k, k < 64 → (dep a b c d).getLsbD k =
      if c.toNat % 64 ≤ k ∧ k < c.toNat % 64 + fieldBits d then b.getLsbD (k - c.toNat % 64)
      else a.getLsbD k) ∧
    (∀ a b c d k, k < 64 → (extu a b c d).getLsbD k =
      (decide (k < fieldBits d) && (b ++ a).getLsbD (c.toNat % 128 + k))) ∧
    (∀ a b c d k, k < 64 → (ext a b c d).getLsbD k =
      (b ++ a).getLsbD (c.toNat % 128 + min k (fieldBits d - 1))) ∧
    (∀ a b c d, (∃ k, (ffo a b c d).toNat = k ∧ k < fieldBits d ∧ a.getLsbD (c.toNat % 64 + k) = true ∧
        ∀ j, k < j → j < fieldBits d → a.getLsbD (c.toNat % 64 + j) = false) ∨
      (ffo a b c d = BitVec.allOnes 64 ∧ ∀ j < fieldBits d, a.getLsbD (c.toNat % 64 + j) = false)) ∧
    ∀ (s : State) (v : Bool) (o : R2), s.mods.brmod = none →
      (∀ row ∈ ([(.dep, dep), (.ext, ext), (.extu, extu)] :
          List ((Bool → R2 → Instr) × (Word → Word → Word → Word → Word))),
        ElementRule (exec (row.1 v o) s) s v o.t (o.a.legal v && o.b.legal v) s.imodMask fun e =>
          row.2 (o.a.value s e) (o.b.value (·.signExtend 64) s e) (optValue (·.setWidth 64) s e s.specC)
            (optValue (·.setWidth 64) s e s.specD)) ∧
      ElementRule (exec (.ffo v o) s) s v o.t (o.a.legal v) s.imodMask fun e =>
          ffo (o.a.value s e) 0#64 (optValue (·.setWidth 64) s e s.specC)
            (optValue (·.setWidth 64) s e s.specD)

/-- CHK: within the bounds the instruction only goes on, outside them it raises CAUSE_CHK. The immediate form
checks C against A and the constant, the register form checks B against A and C; bit 0 of Cn2 opens the
lower end and bit 1 the upper one. A vector form checks every active element below VL (45 R504, R505,
60 R734). Without IMOD C is 0. A type code of 1 under v = 0, that of an operand of IMOD or STRIDE that is not used
among them (log 17), raises Unimplemented (30 R130). -/
def Obligations.BoundsChecks : Prop :=
  ∀ (s : State) (v : Bool) (i : ChkI) (o : ChkR), s.mods.brmod = none →
    ∀ row ∈ ([(.chkImmediate v i, i.cn, i.a.legal v && s.modsLegal v,
          (fun e => i.a.value s e),
          (fun e => optValue (·.signExtend 64) s e s.specC), (fun _ => s.imm16 .signed i.imm)),
        (.chkR3Form v o, o.cn, o.a.legal v && o.b.legal v && s.modsLegal v,
          (fun e => o.a.value s e), (fun e => o.b.value (·.signExtend 64) s e),
          (fun e => optValue (·.signExtend 64) s e s.specC))] :
        List (Instr × BitVec 2 × Bool × (Fin 64 → Word) × (Fin 64 → Word) × (Fin 64 → Word))),
      let inside (e : Fin 64) : Prop :=
        let lo := (row.2.2.2.1 e).toInt
        let x := (row.2.2.2.2.1 e).toInt
        let hi := (row.2.2.2.2.2 e).toInt
        (if row.2.1.getLsbD 0 then lo < x else lo ≤ x) ∧ (if row.2.1.getLsbD 1 then x < hi else x ≤ hi)
      let all : Prop := if v then ∀ e : Fin 64, e.val < s.vl.toNat → s.imodMask.1.getLsbD e.val = true → inside e
        else inside 0
      (row.2.2.1 = true → all → OnlyIp (exec row.1 s) s (s.ip + 9#64)) ∧
      (row.2.2.1 = true → ¬all → Raises (exec row.1 s) s (Config.causeChk.setWidth 64)) ∧
      (row.2.2.1 = false → Unimplemented (exec row.1 s) s)

/-! ### Floating point -/

/-- One-source operations of the float groups whose result is a bit operation or a test: FMOV, the sign
operations, the NaN and finite tests, and the sign operations of decimal float (sign-magnitude) and posit
(two's complement) (42 R344 to R349, R380). -/
def Sys2Proof.signOperations : List ((Bool → R1 → Instr) × (Word → Word)) :=
  [(.fmov, fun a => a),
   (.fabs, fun a => 0#1 ++ a.extractLsb' 0 63),
   (.fnabs, fun a => 1#1 ++ a.extractLsb' 0 63),
   (.fneg, fun a => ~~~(a.extractLsb' 63 1) ++ a.extractLsb' 0 63),
   (.dfabs, fun a => 0#1 ++ a.extractLsb' 0 63),
   (.dfnabs, fun a => 1#1 ++ a.extractLsb' 0 63),
   (.dfneg, fun a => ~~~(a.extractLsb' 63 1) ++ a.extractLsb' 0 63),
   (.pabs, fun a => BitVec.ofInt 64 |a.toInt|),
   (.pnabs, fun a => BitVec.ofInt 64 (-|a.toInt|)),
   (.pneg, fun a => BitVec.ofInt 64 (-a.toInt)),
   (.isnan, fun a =>
     if a.extractLsb' 52 11 = 0x7ff#11 ∧ a.extractLsb' 0 52 ≠ 0#52 then 1#64 else 0#64),
   (.finite, fun a => if a.extractLsb' 52 11 = 0x7ff#11 then 0#64 else 1#64)]

/-- The rounding mode of an instruction: Rm3 of a pending IMOD word whose A[1] is 1, and else its own (42 R342). -/
def Sys2Proof.roundingMode (s : State) (own : Config.Rounding) : Config.Rounding :=
  match s.mods.imod with
  | some im => if im.a.getLsbD 1 = true then Config.default.rmDecode im.rm else own
  | none => own

/-- The one-source float operations follow the element rule with the mask in their word; FTOI, ITOF, FSQRT and
TRUNC are the model's binary64 operations, in the rounding mode of a pending IMOD word whose A[1] is 1 and else in
nearest-even, or, for FSQRT, in the mode of its own field (42 R342, R350, R380; log 25). RM_DECODE at its default
makes every field nearest-even (log 9). -/
def Obligations.FloatOneSource : Prop :=
  (∀ k, Config.default.rmDecode k = .nearestEven) ∧
  ∀ (s : State) (v : Bool) (o : R1) (rm : BitVec 3), s.mods.brmod = none →
    (∀ row ∈ signOperations, ElementRule (exec (row.1 v o) s) s v o.t (o.a.legal v) (s.readM o.m, o.z) fun e =>
      row.2 (o.a.value s e)) ∧
    ∀ row ∈ ([(.ftoi v o, fpToInt (roundingMode s .nearestEven)), (.itof v o, fpOfInt (roundingMode s .nearestEven)), (.trunc v o, fpTrunc),
        (.fsign v o, fun a => fpCompare a 0#64), (.fsqrt v rm o, fpSqrt (roundingMode s (Config.default.rmDecode rm)))] :
        List (Instr × (Word → Word))),
      ElementRule (exec row.1 s) s v o.t (o.a.legal v) (s.readM o.m, o.z) fun e => row.2 (o.a.value s e)

/-- Two-source float operations follow the element rule with IMOD's mask; a constant is the float constant
of 30 R106 (42 R352 to R368, R381). So do FMA, FMS, FNMA, FNMS and FDP with the operands C and D of IMOD
(42 R372, R373). The arithmetic is the model's binary64 arithmetic (log 25, log 26), in the rounding mode of a
pending IMOD word whose A[1] is 1 and else in nearest-even (42 R342). -/
def Obligations.FloatArithmetic : Prop :=
  ∀ (s : State) (v : Bool) (o : R2), s.mods.brmod = none →
    (∀ row ∈ ([(.fadd v o, fpAdd (roundingMode s .nearestEven)), (.fsub v o, fpSub (roundingMode s .nearestEven)), (.fmul v o, fpMul (roundingMode s .nearestEven)),
        (.fdiv v o, fpDiv (roundingMode s .nearestEven)), (.fmin v o, fun a b => if fpLt a b then a else b),
        (.fmax v o, fun a b => if fpLt b a then a else b), (.fcmp v o, fpCompare),
        (.fcmpb v o, fpCompareBits), (.fseq v o, fun a b => if fpEq a b then 1#64 else 0#64),
        (.fsne v o, fun a b => if fpEq a b then 0#64 else 1#64),
        (.fslt v o, fun a b => if fpLt a b then 1#64 else 0#64),
        (.fsle v o, fun a b => if fpLe a b then 1#64 else 0#64),
        (.cpysgn v o, fun a b => b.extractLsb' 63 1 ++ a.extractLsb' 0 63)] :
        List (Instr × (Word → Word → Word))),
      ElementRule (exec row.1 s) s v o.t (o.a.legal v && o.b.legal v) s.imodMask fun e =>
        row.2 (o.a.value s e) (o.b.value float6 s e)) ∧
    (∀ row ∈ ([(.fma v o, fpFma (roundingMode s .nearestEven)), (.fms v o, fpFms (roundingMode s .nearestEven)), (.fnma v o, fpFnma (roundingMode s .nearestEven)),
        (.fnms v o, fpFnms (roundingMode s .nearestEven))] : List (Instr × (Word → Word → Word → Word))),
      ElementRule (exec row.1 s) s v o.t (o.a.legal v && o.b.legal v) s.imodMask
        fun e => row.2 (o.a.value s e) (o.b.value float6 s e) (optValue float6 s e s.specC)) ∧
    ElementRule (exec (.fdp v o) s) s v o.t (o.a.legal v && o.b.legal v) s.imodMask fun e =>
      fpDot (roundingMode s .nearestEven) (o.a.value s e) (o.b.value float6 s e) (optValue float6 s e s.specC)
        (optValue float6 s e s.specD)

/-- The ordering of two binary64 numbers: unordered where either is a NaN, and otherwise equal, less or greater
by numeric value, so that the two zeros are equal (42 R360); FSEQ, FSLT and FSLE ask it, and FCMP gives -1.0,
0.0, +1.0 or, unordered, 2.0 (42 R361). Which patterns are NaNs and which number another stands for is binary64,
which the spec takes from general knowledge (42 R341): log 25 (PRESUMED). -/
def Obligations.FloatComparison : Prop :=
  ∀ a b : Word,
    (fpNanPattern a ∨ fpNanPattern b →
      fpEq a b = false ∧ fpLt a b = false ∧ fpLe a b = false ∧ fpCompare a b = 0x4000000000000000#64) ∧
    (¬fpNanPattern a → ¬fpNanPattern b →
      fpEq a b = decide (fpUnits a = fpUnits b) ∧ fpLt a b = decide (fpUnits a < fpUnits b) ∧
        fpLe a b = decide (fpUnits a ≤ fpUnits b) ∧
        fpCompare a b = if fpUnits a < fpUnits b then 0xbff0000000000000#64
          else if fpUnits a = fpUnits b then 0#64 else 0x3ff0000000000000#64)

/-- Binary64 arithmetic in the nearest-even mode: sum, difference, product, quotient, the fused operations
and the conversion of an integer are the exact value of their finite operands rounded once, and a square root
is a nearest one (42 R341, R342, R352 to R357, R350, R372, R373, R380; log 25). -/
def Obligations.FloatRounding : Prop :=
  (∀ a b : Word, fpFinitePattern a → fpFinitePattern b →
    RoundedTo (fpAdd .nearestEven a b) (fpUnits a + fpUnits b) 1 ∧
    RoundedTo (fpSub .nearestEven a b) (fpUnits a - fpUnits b) 1 ∧
    RoundedTo (fpMul .nearestEven a b) (fpUnits a * fpUnits b) fpOne ∧
    (fpUnits b ≠ 0 → RoundedTo (fpDiv .nearestEven a b) (fpUnits a * fpOne) (fpUnits b))) ∧
  (∀ a b c d : Word, fpFinitePattern a → fpFinitePattern b → fpFinitePattern c → fpFinitePattern d →
    RoundedTo (fpFma .nearestEven a b c) (fpUnits a * fpUnits b + fpUnits c * fpOne) fpOne ∧
    RoundedTo (fpFms .nearestEven a b c) (fpUnits a * fpUnits b - fpUnits c * fpOne) fpOne ∧
    RoundedTo (fpFnma .nearestEven a b c) (-(fpUnits a * fpUnits b) + fpUnits c * fpOne) fpOne ∧
    RoundedTo (fpFnms .nearestEven a b c) (-(fpUnits a * fpUnits b) - fpUnits c * fpOne) fpOne ∧
    RoundedTo (fpDot .nearestEven a b c d) (fpUnits a * fpUnits b + fpUnits c * fpUnits d) fpOne) ∧
  (∀ a : Word, RoundedTo (fpOfInt .nearestEven a) (a.toInt * fpOne) 1) ∧
  ∀ a : Word, fpFinitePattern a → 0 ≤ fpUnits a →
    let w := fpUnits (fpSqrt .nearestEven a)
    0 ≤ w ∧ ∀ c, ¬fpNanPattern c → 0 ≤ fpUnits c →
      (w < fpUnits c → 4 * (fpUnits a * fpOne) ≤ (w + fpUnits c) ^ 2) ∧
      (fpUnits c < w → (w + fpUnits c) ^ 2 ≤ 4 * (fpUnits a * fpOne))

/-- An infinity, by its sign (42 R341). -/
def Sys2Proof.infinity (neg : Bool) : Word := BitVec.ofBool neg ++ 0x7ff0000000000000#63

/-- Bit `k` of FCMPB's word for an ordered pair (42 R363). -/
def Sys2Proof.orderedBit (a b : Word) (k : Nat) : Prop :=
  match k with
  | 0 => fpUnits a = fpUnits b
  | 1 | 63 => fpUnits a < fpUnits b
  | 2 => fpUnits a ≤ fpUnits b
  | 3 => |fpUnits a| < |fpUnits b|
  | 8 => fpUnits a ≠ fpUnits b
  | 9 => fpUnits b ≤ fpUnits a
  | 10 => fpUnits b < fpUnits a
  | 11 => |fpUnits b| ≤ |fpUnits a|
  | 12 => True
  | _ => False

/-- Binary64 arithmetic with an infinite operand, in every rounding mode (42 R341; log 25): the IEEE infinity, or the
canonical NaN for infinity minus infinity, 0 times infinity, infinity over infinity and the root of -infinity. A fused
operation adds the product, which an infinite factor makes exact, to its addend. -/
def Sys2Proof.InfiniteOperands (m : Config.Rounding) : Prop :=
  let nan : Word := 0x7ff8000000000000#64
  (∀ (p : Bool) (a : Word), fpFinitePattern a →
    fpAdd m (infinity p) a = infinity p ∧ fpAdd m a (infinity p) = infinity p ∧
    fpSub m (infinity p) a = infinity p ∧ fpSub m a (infinity p) = infinity !p ∧
    fpMul m (infinity p) a = (if fpUnits a = 0 then nan else infinity (p != a.getLsbD 63)) ∧
    fpMul m a (infinity p) = (if fpUnits a = 0 then nan else infinity (p != a.getLsbD 63)) ∧
    fpDiv m (infinity p) a = infinity (p != a.getLsbD 63) ∧
    fpDiv m a (infinity p) = BitVec.ofBool (p != a.getLsbD 63) ++ 0#63) ∧
  (∀ p q : Bool,
    fpAdd m (infinity p) (infinity q) = (if p = q then infinity p else nan) ∧
    fpSub m (infinity p) (infinity q) = (if p = q then nan else infinity p) ∧
    fpMul m (infinity p) (infinity q) = infinity (p != q) ∧ fpDiv m (infinity p) (infinity q) = nan ∧
    fpSqrt m (infinity p) = if p then nan else infinity false) ∧
  (∀ a b c : Word, ¬(fpFinitePattern a ∧ fpFinitePattern b) →
    fpFma m a b c = fpAdd m (fpMul m a b) c ∧ fpFms m a b c = fpSub m (fpMul m a b) c ∧
    fpFnma m a b c = fpSub m c (fpMul m a b) ∧
    fpFnms m a b c = fpSub m (fpMul m (a ^^^ 0x8000000000000000#64) b) c ∧
    ∀ d, (fpFinitePattern c → fpFinitePattern d → fpDot m a b c d = fpAdd m (fpMul m a b) 0#64 ∧
        fpDot m c d a b = fpAdd m (fpMul m a b) 0#64) ∧
      (¬(fpFinitePattern c ∧ fpFinitePattern d) → fpDot m a b c d = fpAdd m (fpMul m a b) (fpMul m c d))) ∧
  ∀ (p : Bool) (a b : Word), fpFinitePattern a → fpFinitePattern b →
    fpFma m a b (infinity p) = infinity p ∧ fpFms m a b (infinity p) = infinity !p ∧
    fpFnma m a b (infinity p) = infinity p ∧ fpFnms m a b (infinity p) = infinity !p

/-- Where a rounding is not the whole answer: a NaN operand, as the addend of a fused operation too, gives the
canonical NaN, and an infinite one an infinity,
a zero or the NaN; a product or quotient has the sign of its operands, and an exact sum of 0 is -0 only where both
are negative; x / 0 is an infinity and 0 / 0 a NaN; the square root of a negative number is a NaN and that of -0 is
-0; FTOI is the nearest integer, saturated, and 0 for a NaN; TRUNC of a finite number drops its fraction, of a NaN it is
the canonical NaN and of an infinity that infinity (42 R341, R350, R357, R373, R380; log 25). FCMPB of an unordered pair is bit 4 alone, and of an ordered one the relations of its
table (42 R363). The six-bit float constant is `(1 + S/8) * 2^(E-3)` (30 R106). -/
def Obligations.FloatSpecialCases : Prop :=
  (∀ a b : Word, (fpNanPattern a ∨ fpNanPattern b → fpCompareBits a b = 0x10#64) ∧
    (¬fpNanPattern a → ¬fpNanPattern b →
      ∀ k < 64, (fpCompareBits a b).getLsbD k = true ↔ orderedBit a b k)) ∧
  (∀ m, InfiniteOperands m) ∧
  (∀ k : BitVec 6, fpUnits (float6 k) * 8 =
    (8 + (k.extractLsb' 0 3).toNat : Int) * 2 ^ ((k.extractLsb' 3 3).toNat + 1071)) ∧
  (∀ a b : Word, fpNanPattern a ∨ fpNanPattern b →
    ∀ f ∈ [fpAdd, fpSub, fpMul, fpDiv], f .nearestEven a b = 0x7ff8000000000000#64) ∧
  (∀ (m : Config.Rounding) (a b c : Word), fpNanPattern a ∨ fpNanPattern b ∨ fpNanPattern c →
    ∀ f ∈ [fpFma, fpFms, fpFnma, fpFnms], f m a b c = 0x7ff8000000000000#64) ∧
  (∀ a : Word, fpNanPattern a → fpTrunc a = 0x7ff8000000000000#64) ∧
  (∀ p : Bool, fpTrunc (infinity p) = infinity p) ∧
  (∀ a b : Word, fpFinitePattern a → fpFinitePattern b →
    (fpMul .nearestEven a b).getLsbD 63 = (a.getLsbD 63 != b.getLsbD 63) ∧
    (fpUnits a + fpUnits b = 0 →
      fpAdd .nearestEven a b = BitVec.ofBool (a.getLsbD 63 && b.getLsbD 63) ++ 0#63) ∧
    (fpUnits b ≠ 0 → (fpDiv .nearestEven a b).getLsbD 63 = (a.getLsbD 63 != b.getLsbD 63)) ∧
    (fpUnits b = 0 → fpDiv .nearestEven a b =
      if fpUnits a = 0 then 0x7ff8000000000000#64
      else BitVec.ofBool (a.getLsbD 63 != b.getLsbD 63) ++ 0x7ff0000000000000#63)) ∧
  (∀ a : Word, fpNanPattern a ∨ fpUnits a < 0 → fpSqrt .nearestEven a = 0x7ff8000000000000#64) ∧
  fpSqrt .nearestEven 0x8000000000000000#64 = 0x8000000000000000#64 ∧
  (∀ a : Word, fpNanPattern a → fpToInt .nearestEven a = 0#64) ∧
  (∀ a : Word, ¬fpNanPattern a → ∃ r : Int,
    2 * |r * fpOne - fpUnits a| ≤ fpOne ∧ (2 * |r * fpOne - fpUnits a| = fpOne → r % 2 = 0) ∧
    (fpToInt .nearestEven a).toInt = max (-(2 ^ 63)) (min (2 ^ 63 - 1) r)) ∧
  ∀ a : Word, fpFinitePattern a →
    fpUnits (fpTrunc a) = (fpUnits a).tdiv fpOne * fpOne ∧ (fpTrunc a).getLsbD 63 = a.getLsbD 63

/-! ### Graphics -/

/-- CLIP's value for a point: 1 outside the target or the enabled clip rectangle, whose bounds are inclusive, and 0
inside, in whole pixels (43 R394). -/
def Sys2Proof.clipped (g : Config.Gfx) (p : Word) : Word :=
  let x : Int := (p.extractLsb' 0 32).toInt / 65536
  let y : Int := (p.extractLsb' 32 32).toInt / 65536
  if (0 ≤ x ∧ x < g.width ∧ 0 ≤ y ∧ y < g.height) ∧
      (g.clipEnable = true → (g.x0 : Int) ≤ x ∧ x ≤ g.x1 ∧ (g.y0 : Int) ≤ y ∧ y ≤ g.y1)
    then 0#64 else 1#64

/-- CLIP gives 1 for a point outside the target or the enabled clip rectangle and 0 inside: its function of the
point is `clipped` for every target and rectangle, and the instruction applies it with the graphics parameters at
their defaults (43 R393, R394; log 9). TRANSFORM gives
the point itself while CMD bit 0 is 0, and otherwise the affine map of the first two rows of coefficients
(43 R397); both follow the element rule. RW_COEFF exchanges:
for a number up to 12 Rt gets the old coefficient and the coefficient becomes the low 32 bits of B; for a larger
one Rt gets 0 (43 R399). PLOT appends the point and the low 32 bits of the colour, once, or for each active
element below VL in ascending order, and writes no register (43 R396); the type codes of its target and of IMOD and
STRIDE must agree with v (30 R130; log 17), as RW_COEFF's. -/
def Obligations.GraphicsOperations : Prop :=
  (∀ (g : Config.Gfx) (p : Word), clipWord g p = clipped g p) ∧
  ∀ (s : State) (v : Bool) (o : R1) (p : R2), s.mods.brmod = none →
    ElementRule (exec (.clip v o) s) s v o.t (o.a.legal v) (s.readM o.m, o.z)
      (fun e => clipWord Config.default.gfx (o.a.value s e)) ∧
    ElementRule (exec (.transform v o) s) s v o.t (o.a.legal v) (s.readM o.m, o.z) (fun e =>
      let k (n : Fin 13) : Int := ((s.coeff[n]).extractLsb' 0 32).toInt
      let x : Int := ((o.a.value s e).extractLsb' 0 32).toInt
      let y : Int := ((o.a.value s e).extractLsb' 32 32).toInt
      if (s.coeff[12]).getLsbD 0 then
        BitVec.ofInt 32 ((k 4 * x + k 5 * y) / 65536 + k 7) ++
          BitVec.ofInt 32 ((k 0 * x + k 1 * y) / 65536 + k 3)
      else o.a.value s e) ∧
    (match p.a, p.t, if s.modsLegal false then scalarSource (·.signExtend 64) s p.b else none with
      | .x ra, .x rt, some n =>
        (∀ k : Fin 13, (s.readX ra).toNat = k.val →
          ScalarResult (exec (.rwCoeff p) s) { s with coeff := s.coeff.set k.val (0#32 ++ n.extractLsb' 0 32) }
            (s.ip + 9#64) rt s.coeff[k]) ∧
        (13 ≤ (s.readX ra).toNat → ScalarResult (exec (.rwCoeff p) s) s (s.ip + 9#64) rt 0#64)
      | _, _, _ => Unimplemented (exec (.rwCoeff p) s) s) ∧
    ((p.a.legal v && p.b.legal v && p.t.agrees v && s.modsLegal v) = true →
      exec (.plot v p) s = .next { s with
      plotLog := s.plotLog ++
        ((if v then (List.finRange 64).filter fun e => decide (e.val < s.vl.toNat) && s.imodMask.1.getLsbD e.val
          else [0]).map fun e => (p.a.value s e, (p.b.value (·.signExtend 64) s e).extractLsb' 0 32))
      ip := s.ip + 9#64
      mods := Mods.none }) ∧
    ((p.a.legal v && p.b.legal v && p.t.agrees v && s.modsLegal v) = false →
      Unimplemented (exec (.plot v p) s) s)

/-! ### Flow -/

/-- The integer comparisons that branch: opcode, extension of a constant B, condition (45 R485 to R490). -/
noncomputable def Sys2Proof.branchTable : List ((Branch → Instr) × BitVec 8 × (BitVec 6 → Word) × (Word → Word → Bool)) :=
  [(.beq, 0x4e#8, (·.signExtend 64), fun a b => decide (a = b)),
   (.bne, 0x4f#8, (·.signExtend 64), fun a b => decide (a ≠ b)),
   (.blt, 0x48#8, (·.signExtend 64), fun a b => decide (a.toInt < b.toInt)),
   (.bge, 0x49#8, (·.signExtend 64), fun a b => decide (b.toInt ≤ a.toInt)),
   (.bltu, 0x4a#8, (·.setWidth 64), fun a b => decide (a.toNat < b.toNat)),
   (.bgeu, 0x4b#8, (·.setWidth 64), fun a b => decide (b.toNat ≤ a.toNat))]

/-- The other conditional branches (45 R491, R493, R494). -/
noncomputable def Sys2Proof.otherBranchTable : List ((Branch → Instr) × BitVec 8 × (BitVec 6 → Word) × (Word → Word → Bool)) :=
  [(.bbs, 0x4d#8, (·.setWidth 64), fun a b => a.getLsbD (b.toNat % 64)),
   (.fbeq, 0x46#8, float6, fpEq),
   (.fbne, 0x47#8, float6, fun a b => !fpEq a b)]

/-- What a conditional branch without a modifier does, with the condition `cond` and the constants of B extended
by `ext`. -/
def Sys2Proof.BranchRule (r : Out) (s : State) (o : Branch) (ext : BitVec 6 → Word) (cond : Word → Word → Bool) : Prop :=
  match scalarSource ext s o.b with
  | some b => OnlyIp r s (if cond (s.readX o.ra) b then s.ip + o.disp.signExtend 64 else s.ip + 9#64)
  | none => Unimplemented r s

/-- BEQ, BNE, BLT, BGE, BLTU and BGEU alone: the opcode, the examples of their rules, and the effect: to the
own address plus the displacement where the condition holds of A and B, else to the next instruction; no
register is written, and a vector register as B raises Unimplemented. Opcodes C0h to CFh are reserved
(45 R482, R485 to R490). -/
def Obligations.ConditionalBranches : Prop :=
  (∀ row ∈ branchTable, ∀ o : Branch, (row.1 o).encode.extractLsb' 0 8 = row.2.1 ∧
    decode (row.1 o).encode = .ok (row.1 o) ∧
    ∀ s : State, s.scalarReady → BranchRule (exec (row.1 o) s) s o row.2.2.1 row.2.2.2) ∧
  (∀ w : BitVec 36, w.extractLsb' 4 4 = 0xc#4 → ∃ e, decode w = .error e) ∧
  decode 0x00020524e#36 = .ok (.beq ⟨.x 2#5, 1#5, 18#16⟩) ∧
  decode 0xffc08774f#36 = .ok (.bne ⟨.imm 0#6, 1#5, (-9)⟩) ∧
  decode 0x000286448#36 = .ok (.blt ⟨.x 2#5, 1#5, 100#16⟩) ∧
  decode 0xff0207849#36 = .ok (.bge ⟨.x 2#5, 1#5, (-200)⟩) ∧
  decode 0x00020494a#36 = .ok (.bltu ⟨.x 2#5, 1#5, 9#16⟩) ∧
  decode 0x00450494b#36 = .ok (.bgeu ⟨.imm 5#6, 1#5, 9#16⟩)

/-- BBS, FBEQ and FBNE alone (45 R491, R493, R494), and all conditional branches after BRMOD: the branch writes
the next address to the link register, taken or not, and its target is the base plus the 35-bit displacement;
the base is Rc read before the link register is written, the branch word's address for x31, or a constant; a
vector Rb or Rc raises Unimplemented (45 R483). BAL, JAL and JALR save the next address and go to their target:
relative, absolute, or a register (x31 meaning the word's own address), read before the save, plus a constant
(45 R496, R499, R501). JALR with a vector register raises Unimplemented. -/
def Obligations.JumpsAndModifiedBranches : Prop :=
  (∀ row ∈ otherBranchTable, ∀ (s : State) (o : Branch), s.scalarReady →
    BranchRule (exec (row.1 o) s) s o row.2.2.1 row.2.2.2) ∧
  (∀ row ∈ branchTable ++ otherBranchTable, ∀ (s : State) (o : Branch) (m : BrmodOps), s.mods.brmod = some m →
    s.modsLegal false = true → match scalarSource row.2.2.1 s o.b, m.c with
    | none, _ => Unimplemented (exec (row.1 o) s) s
    | some _, .v _ => Unimplemented (exec (row.1 o) s) s
    | some b, c =>
      ScalarResult (exec (row.1 o) s) s
        (if row.2.2.2 (s.readX o.ra) b then
          (if c = .x 31#5 then s.ip else c.value (·.signExtend 64) s 0) +
            (m.hi ++ m.lo ++ o.disp).signExtend 64
        else s.ip + 9#64)
        (m.rt.setWidth 5) (s.ip + 9#64)) ∧
  ∀ (s : State) (addr : BitVec 26) (l : BitVec 2) (o : RI), s.scalarReady →
    ScalarResult (exec (.bal addr l) s) s (s.ip + addr.signExtend 64) (l.setWidth 5) (s.ip + 9#64) ∧
    ScalarResult (exec (.jal addr l) s) s (addr.setWidth 64) (l.setWidth 5) (s.ip + 9#64) ∧
    match o.a, o.t with
    | .x ra, .x rt => ScalarResult (exec (.jalr o) s) s
        ((if ra = 31#5 then s.ip else s.readX ra) + s.imm16 .signed o.imm) rt (s.ip + 9#64)
    | _, _ => Unimplemented (exec (.jalr o) s) s

/-! ### Masks and vectors -/

/-- The three-mask operations (47 R602 to R606, R609 to R611). -/
noncomputable def Sys2Proof.maskTable : List ((MaskRRR → Instr) × (Mask → Mask → Mask)) :=
  [(.mand, fun a b => a &&& b), (.morMask, fun a b => a ||| b), (.mxorMask, fun a b => a ^^^ b),
   (.mnand, fun a b => ~~~(a &&& b)), (.mnor, fun a b => ~~~(a ||| b)), (.mxnor, fun a b => ~~~(a ^^^ b)),
   (.madd, fun a b => a + b), (.msub, fun a b => a - b)]

/-- Mask operations write the whole mask register and nothing else (47 R601, R607, R608, R612, R616). MPOP
counts the bits of a mask, MFIRST and MLAST give the lowest and highest set bit or 128, MFM moves the mask,
all to a scalar register (47 R613 to R615, R617). MTVL sets VL to the value of Ra, at most VLMAX, and MFVL
reads VL (10 R28, 47 R618, R619). Another type code raises Unimplemented (47 R600). -/
def Obligations.MaskOperations : Prop :=
  ∀ (s : State) (m t : BitVec 3) (r rt : BitVec 5) (tt : BitVec 2), s.mods.brmod = none →
    (∀ row ∈ maskTable, ∀ o, MaskResult (exec (row.1 o) s) s (s.ip + 9#64) o.t
      (row.2 (s.readM o.a) (s.readM o.b))) ∧
    (∀ o : MaskShift, match scalarSource (·.setWidth 64) s o.b with
      | some n =>
        MaskResult (exec (.msll o) s) s (s.ip + 9#64) o.t (s.readM o.a <<< (n.toNat % 64)) ∧
        MaskResult (exec (.msrl o) s) s (s.ip + 9#64) o.t (s.readM o.a >>> (n.toNat % 64))
      | none => Unimplemented (exec (.msll o) s) s ∧ Unimplemented (exec (.msrl o) s) s) ∧
    MaskResult (exec (.mtm ⟨.x r, t⟩) s) s (s.ip + 9#64) t (s.readX r) ∧
    (∃ w : Mask, (∀ k < 64, w.getLsbD k = decide (k < (s.readX r).toNat)) ∧
      MaskResult (exec (.mfill ⟨.x r, t⟩) s) s (s.ip + 9#64) t w) ∧
    ScalarResult (exec (.mpop ⟨m, 0#2, rt⟩) s) s (s.ip + 9#64) rt
      (BitVec.ofNat 64 ((List.range 64).filter (s.readM m).getLsbD).length) ∧
    ScalarResult (exec (.mfm ⟨m, 0#2, rt⟩) s) s (s.ip + 9#64) rt (s.readM m) ∧
    (∃ lo hi : Nat,
      (if s.readM m = 0#64 then lo = 128 ∧ hi = 128
        else (s.readM m).getLsbD lo = true ∧ (∀ j < lo, (s.readM m).getLsbD j = false) ∧
          (s.readM m).getLsbD hi = true ∧ ∀ j, hi < j → (s.readM m).getLsbD j = false) ∧
      ScalarResult (exec (.mfirst ⟨m, 0#2, rt⟩) s) s (s.ip + 9#64) rt (BitVec.ofNat 64 lo) ∧
      ScalarResult (exec (.mlast ⟨m, 0#2, rt⟩) s) s (s.ip + 9#64) rt (BitVec.ofNat 64 hi)) ∧
    exec (.mtvl (.x r)) s = .next { s with
      vl := BitVec.ofNat 64 (min (s.readX r).toNat 64), ip := s.ip + 9#64, mods := Mods.none } ∧
    ScalarResult (exec (.mfvl 0#2 rt) s) s (s.ip + 9#64) rt s.vl ∧
    (∀ i ∈ [Instr.mtm ⟨.v r, t⟩, .mfill ⟨.v r, t⟩, .mtvl (.v r)], Unimplemented (exec i s) s) ∧
    (tt ≠ 0#2 → ∀ i ∈ [Instr.mpop ⟨m, tt, rt⟩, .mfm ⟨m, tt, rt⟩, .mfirst ⟨m, tt, rt⟩, .mlast ⟨m, tt, rt⟩,
        .mfvl tt rt],
      Unimplemented (exec i s) s)

/-- The active elements below VL under a mask, in ascending order. -/
def Sys2Proof.activeBelow (s : State) (m : Mask) : List (Fin 64) :=
  (List.finRange 64).filter fun e => decide (e.val < s.vl.toNat) && m.getLsbD e.val

/-- V2BITS and BITS2V: bits of a scalar register from or to the elements below VL; a bit or element whose
mask bit is 0 is cleared under z and kept otherwise (47 R626, R627). VCMPRSS and VCIDX fill the target from
element 0 with the active elements of Va, or with A times their index; the rest below VL is zeroed under z
and kept otherwise. VSCAN writes to every element below VL the sum of A over the active elements before it
(47 R628 to R630). -/
def Obligations.VectorSelections : Prop :=
  ∀ (s : State) (o : R1), s.mods.brmod = none →
    let mask := s.readM o.m
    let packed (f : Fin 64 → Word) (old : VReg) (e : Fin 64) : Word :=
      match (activeBelow s mask)[e.val]? with
      | some k => f k
      | none => if e.val < s.vl.toNat ∧ o.z = true then 0#64 else old[e]
    (match o.a, o.t with
      | .v ra, .x rt => ∃ w : Word, (∀ k : Fin 64, w.getLsbD k.val =
          if k.val < s.vl.toNat then
            if mask.getLsbD k.val then ((s.readV ra)[k]).getLsbD 0
            else if o.z then false else (s.readX rt).getLsbD k.val
          else (s.readX rt).getLsbD k.val) ∧
        ScalarResult (exec (.v2bits o) s) s (s.ip + 9#64) rt w
      | _, _ => Unimplemented (exec (.v2bits o) s) s) ∧
    (match o.a, o.t with
      | .x ra, .v rt => VectorResult (exec (.bits2v o) s) s (s.ip + 9#64) rt fun e =>
          if e.val < s.vl.toNat then
            if mask.getLsbD e.val then BitVec.ofNat 64 ((s.readX ra).getLsbD e.val).toNat
            else if o.z then 0#64 else (s.readV rt)[e]
          else (s.readV rt)[e]
      | _, _ => Unimplemented (exec (.bits2v o) s) s) ∧
    (match o.a, o.t with
      | .v ra, .v rt => VectorResult (exec (.vcmprss o) s) s (s.ip + 9#64) rt
          (packed (fun k => (s.readV ra)[k]) (s.readV rt))
      | _, _ => Unimplemented (exec (.vcmprss o) s) s) ∧
    match o.t with
    | .v rt =>
      VectorResult (exec (.vcidx o) s) s (s.ip + 9#64) rt
        (packed (fun k => o.a.value s k * BitVec.ofNat 64 k.val) (s.readV rt)) ∧
      VectorResult (exec (.vscan o) s) s (s.ip + 9#64) rt fun e =>
        if e.val < s.vl.toNat then
          (((activeBelow s mask).filter fun k => decide (k.val < e.val)).map (o.a.value s)).sum
        else (s.readV rt)[e]
    | .x _ => Unimplemented (exec (.vcidx o) s) s ∧ Unimplemented (exec (.vscan o) s) s

/-- VSLLV and VSRLV slide a vector up or down by the amount, with zeros entering; VEX reads and VEINS writes
one element, the index modulo VLMAX (47 R631 to R634). Other type codes raise Unimplemented. -/
def Obligations.VectorSlidesAndElements : Prop :=
  ∀ (s : State) (o : R2), s.mods.brmod = none →
    (match o.a, o.t, scalarSource (·.setWidth 64) s o.b with
      | .v ra, .v rt, some n =>
        VectorResult (exec (.vsllv o) s) s (s.ip + 9#64) rt (fun e =>
          if e.val < s.vl.toNat then
            if n.toNat ≤ e.val then (s.readV ra)[e.val - n.toNat]?.getD 0#64 else 0#64
          else (s.readV rt)[e]) ∧
        VectorResult (exec (.vsrlv o) s) s (s.ip + 9#64) rt fun e =>
          if e.val < s.vl.toNat then
            if e.val + n.toNat < s.vl.toNat then (s.readV ra)[e.val + n.toNat]?.getD 0#64 else 0#64
          else (s.readV rt)[e]
      | _, _, _ => Unimplemented (exec (.vsllv o) s) s ∧ Unimplemented (exec (.vsrlv o) s) s) ∧
    (match o.b, o.a, o.t with
      | .v rb, .x ra, .x rt => ScalarResult (exec (.vex o) s) s (s.ip + 9#64) rt
          ((s.readV rb)[(s.readX ra).toNat % 64]?.getD 0#64)
      | _, _, _ => Unimplemented (exec (.vex o) s) s) ∧
    match o.a, o.t, scalarSource (·.signExtend 64) s o.b with
    | .x ra, .v rt, some n => VectorResult (exec (.veins o) s) s (s.ip + 9#64) rt fun e =>
        if e.val = (s.readX ra).toNat % 64 then n else (s.readV rt)[e]
    | _, _, _ => Unimplemented (exec (.veins o) s) s

/-! ### Memory operations -/

/-- The scalar loads, displacement form: signed extension, and the size in bytes (20 R78, 44 R415 to R429). -/
noncomputable def Sys2Proof.loadTable : List ((LdD → Instr) × Bool × Nat) :=
  [(.ldb, true, 1), (.ldbz, false, 1), (.ldw, true, 2), (.ldwz, false, 2), (.ldt, true, 4), (.ldtz, false, 4),
   (.ldo, true, 8), (.ldoAt64h, false, 8), (.ldptrAt60h, true, 8), (.ldptrAt64h, false, 8)]

/-- The scalar loads, indexed form. -/
noncomputable def Sys2Proof.loadIndexedTable : List ((LdX → Instr) × Bool × Nat) :=
  [(.ldbIndexed, true, 1), (.ldbzIndexed, false, 1), (.ldwIndexed, true, 2), (.ldwzIndexed, false, 2),
   (.ldtIndexed, true, 4), (.ldtzIndexed, false, 4), (.ldoIndexed, true, 8), (.ldoIndexedAt65h, false, 8),
   (.ldptrAt61h, true, 8), (.ldptrAt65h, false, 8)]

/-- A loaded value: `n` bytes, little-endian, with the sign or zeros above (44 R412). -/
def Sys2Proof.loaded (signed : Bool) (n : Nat) (m : List Host.Cell) (ea : Word) : Word :=
  let raw := (memRead m ea n).setWidth (8 * n)
  if signed then raw.signExtend 64 else raw.setWidth 64

/-- A scalar load writes Rt with the extended value at A plus the displacement, or at A plus B scaled; it
changes no memory; a vector register as base, index or target raises Unimplemented (44 R410 to R414). -/
def Obligations.ScalarLoads : Prop :=
  ∀ s : State, s.scalarReady →
    (∀ row ∈ loadTable, ∀ o : LdD, match o.a, o.t with
      | .x ra, .x rt => ScalarResult (exec (row.1 o) s) s (s.ip + 9#64) rt
          (loaded row.2.1 row.2.2 s.mem (s.readX ra + s.displacement o.disp))
      | _, _ => Unimplemented (exec (row.1 o) s) s) ∧
    ∀ row ∈ loadIndexedTable, ∀ o : LdX, match o.a, o.t, scalarSource (·.signExtend 64) s o.b with
      | .x ra, .x rt, some b => ScalarResult (exec (row.1 o) s) s (s.ip + 9#64) rt
          (loaded row.2.1 row.2.2 s.mem (s.readX ra + b * BitVec.ofNat 64 (2 ^ o.sc.toNat)))
      | _, _, _ => Unimplemented (exec (row.1 o) s) s

/-- The scalar stores with their size (44 R431 to R434). -/
noncomputable def Sys2Proof.storeTable : List ((StD → Instr) × (StX → Instr) × Nat) :=
  [(.stb, .stbIndexed, 1), (.stw, .stwIndexed, 2), (.stt, .sttIndexed, 4), (.sto, .stoIndexed, 8)]

/-- The index of an indexed store: IMOD's C, a scalar register or a sign-extended constant; 0 without IMOD
(44 R411, 30 R142). A vector register as C has none (30 R130). -/
def Sys2Proof.storeIndex (s : State) : Option Word :=
  match s.mods.imod with
  | none => some 0#64
  | some im => scalarSource (·.signExtend 64) s im.c

/-- The addresses STPTR clears after a store at `ea`: `ea` shifted right by 8, 16, ... as long as the address
shifted is not 0 (44 R435). -/
def Sys2Proof.cardAddress (ea a : Word) : Prop := ∃ k, 1 ≤ k ∧ k ≤ 8 ∧ ea >>> (8 * (k - 1)) ≠ 0#64 ∧ a = ea >>> (8 * k)

/-- STPTR stores the octa `b` at `ea` and then clears the byte at each card address; every other byte, and
every register, is kept (44 R435). -/
def Sys2Proof.PointerResult (r : Out) (s : State) (ea b : Word) : Prop :=
  ∃ t, r = .next t ∧ t = { s with mem := t.mem, ip := s.ip + 9#64, mods := Mods.none } ∧
    (∀ a, cardAddress ea a → byteAt t.mem a = 0#8) ∧
    (∀ j < 8, ¬cardAddress ea (ea + BitVec.ofNat 64 j) →
      byteAt t.mem (ea + BitVec.ofNat 64 j) = b.extractLsb' (8 * j) 8) ∧
    ∀ a, ¬cardAddress ea a → (∀ j < 8, a ≠ ea + BitVec.ofNat 64 j) → byteAt t.mem a = byteAt s.mem a

/-- A scalar store puts the low bytes of B at A plus the displacement, or at A plus the index scaled, and
changes nothing else; STPTR also clears the bytes at the card addresses. A vector register raises
Unimplemented (44 R410, R411, R414, R431 to R435). -/
def Obligations.ScalarStores : Prop :=
  ∀ (s : State) (o : StD) (x : StX), s.scalarReady → Memory.wf s.mem = true →
    (match o.a, scalarSource (·.setWidth 64) s o.b with
      | .x ra, some b =>
        (∀ row ∈ storeTable,
          StoreResult (exec (row.1 o) s) s (s.ip + 9#64) (s.readX ra + s.displacement o.disp) row.2.2 b) ∧
        PointerResult (exec (.stptr o) s) s (s.readX ra + s.displacement o.disp) b
      | _, _ => (∀ row ∈ storeTable, Unimplemented (exec (row.1 o) s) s) ∧
        Unimplemented (exec (.stptr o) s) s) ∧
    match x.a, scalarSource (·.setWidth 64) s x.b, storeIndex s with
    | .x ra, some b, some k =>
      (∀ row ∈ storeTable, StoreResult (exec (row.2.1 x) s) s (s.ip + 9#64)
        (s.readX ra + k * BitVec.ofNat 64 (2 ^ x.sc.toNat)) row.2.2 b) ∧
      PointerResult (exec (.stptrIndexed x) s) s (s.readX ra + k * BitVec.ofNat 64 (2 ^ x.sc.toNat)) b
    | _, _, _ => (∀ row ∈ storeTable, Unimplemented (exec (row.2.1 x) s) s) ∧
      Unimplemented (exec (.stptrIndexed x) s) s

/-- The registers of REGLIST; none without the word (44 R437). -/
def Sys2Proof.regList (s : State) : BitVec 30 := s.mods.reglist.getD 0#30

/-- How many registers below x(n) are in the list: the octa at which x(n) stands (44 R437). -/
def Sys2Proof.listIndex (l : BitVec 30) (n : Nat) : Nat := ((List.range (n - 1)).filter l.getLsbD).length

/-- Register `q` is in the list; x0 and x31 never are. -/
def Sys2Proof.inList (l : BitVec 30) (q : BitVec 5) : Bool := q != 0#5 && l.getLsbD (q.toNat - 1)

/-- LDM at `ea`: the listed registers, in ascending order, are loaded from ascending octas; the others, and
memory, are kept (44 R438). -/
def Sys2Proof.LoadedList (r : Out) (s : State) (ea : Word) : Prop :=
  ∃ t, r = .next t ∧ t = { s with x := t.x, ip := s.ip + 9#64, mods := Mods.none } ∧
    ∀ q : BitVec 5, t.readX q =
      if inList (regList s) q then memRead s.mem (ea + BitVec.ofNat 64 (8 * listIndex (regList s) q.toNat)) 8
      else s.readX q

/-- STM at `ea`: the listed registers, in ascending order, are stored to ascending octas; every other byte, and
every register, is kept (44 R437). -/
def Sys2Proof.StoredList (r : Out) (s : State) (ea : Word) : Prop :=
  ∃ t, r = .next t ∧ t = { s with mem := t.mem, ip := s.ip + 9#64, mods := Mods.none } ∧
    (∀ (q : BitVec 5) (j : Nat), inList (regList s) q = true → j < 8 →
      byteAt t.mem (ea + BitVec.ofNat 64 (8 * listIndex (regList s) q.toNat + j)) =
        (s.readX q).extractLsb' (8 * j) 8) ∧
    ∀ a, (∀ j < 8 * listIndex (regList s) 31, a ≠ ea + BitVec.ofNat 64 j) → byteAt t.mem a = byteAt s.mem a

/-- LDM and STM, both forms: the address is A plus the displacement, or A plus the index scaled; a vector
register raises Unimplemented (44 R410, R411, R437, R438). -/
def Obligations.MultipleTransfers : Prop :=
  ∀ (s : State) (d : LdD) (x : LdX) (e : StD) (y : StX), s.scalarReady → Memory.wf s.mem = true →
    (match d.a with
      | .x ra => LoadedList (exec (.ldmAt60h d) s) s (s.readX ra + s.displacement d.disp)
      | .v _ => Unimplemented (exec (.ldmAt60h d) s) s) ∧
    (match x.a, scalarSource (·.signExtend 64) s x.b with
      | .x ra, some n =>
        LoadedList (exec (.ldmAt61h x) s) s (s.readX ra + n * BitVec.ofNat 64 (2 ^ x.sc.toNat))
      | _, _ => Unimplemented (exec (.ldmAt61h x) s) s) ∧
    (match e.a with
      | .x ra => StoredList (exec (.stm e) s) s (s.readX ra + s.displacement e.disp)
      | .v _ => Unimplemented (exec (.stm e) s) s) ∧
    match y.a, storeIndex s with
    | .x ra, some n =>
      StoredList (exec (.stmIndexed y) s) s (s.readX ra + n * BitVec.ofNat 64 (2 ^ y.sc.toNat))
    | _, _ => Unimplemented (exec (.stmIndexed y) s) s

/-- CACHE: IC2 = 1 refreshes the fetch view of the 64-byte line that holds the address, IC2 = 2 all of it,
0 nothing; DC3 = 1 and 2 set the data-cache enable on and off; nothing else changes, and the reserved
values, and a vector register as the base, raise Unimplemented (10 R45, 44 R440, 70 R790). -/
def Obligations.CacheCommands : Prop :=
  ∀ (s : State) (d : BitVec 12) (ra : BitVec 5) (dc : BitVec 3) (ic : BitVec 2), s.scalarReady →
    Memory.wf s.mem = true → Memory.wf s.imem = true →
    (ic = 3#2 ∨ 5#3 ≤ dc → Unimplemented (exec (.cache ⟨d, .x ra, dc, ic⟩) s) s) ∧
    (ic ≠ 3#2 → dc < 5#3 →
      ∃ m, (∀ a : Word, byteAt m a =
          if ic = 2#2 ∨ (ic = 1#2 ∧ a.toNat / 64 = (s.readX ra + s.displacement d).toNat / 64)
            then byteAt s.mem a else byteAt s.imem a) ∧
        exec (.cache ⟨d, .x ra, dc, ic⟩) s = .next { s with
          imem := m
          dcacheEnable := if dc = 1#3 then true else if dc = 2#3 then false else s.dcacheEnable
          ip := s.ip + 9#64
          mods := Mods.none }) ∧
    Unimplemented (exec (.cache ⟨d, .v ra, dc, ic⟩) s) s

/-- PUSH, the PUSH pair, POP, the POP pair, LINK and UNLINK: items of eight bytes on a stack that grows
downward (20 R90, 44 R447 to R452). The address is the stack pointer as it reads after its update, which for
x0 is 0. Where registers coincide the last write counts: the loaded value in POP, the stack pointer in the
others (log 20). Another type code raises Unimplemented (30 R118, R130); PUSH and POP of one register check that of
the Rb field they do not use, in which a constant passes (log 17). -/
def Obligations.StackOperations : Prop :=
  ∀ (s : State) (o : R2) (l : RI) (u : Two), s.scalarReady → Memory.wf s.mem = true →
    let at_ (sp : BitVec 5) (a : Word) : Word := if sp = 0#5 then 0#64 else a
    (match scalarSource (·.signExtend 64) s o.b, o.a, o.t with
      | some _, .x ra, .x sp =>
        (∃ m, Stored s.mem m (at_ sp (s.readX sp - 8#64)) 8 (s.readX ra) ∧
          ScalarResult (exec (.push o) s) { s with mem := m } (s.ip + 9#64) sp (s.readX sp - 8#64)) ∧
        ScalarResult (exec (.pop o) s) (s.writeX sp (s.readX sp + 8#64)) (s.ip + 9#64) ra
          (memRead s.mem (s.readX sp) 8)
      | _, _, _ => Unimplemented (exec (.push o) s) s ∧ Unimplemented (exec (.pop o) s) s) ∧
    (match o.b, o.a, o.t with
      | .x rb, .x ra, .x sp =>
        (∃ m m', Stored s.mem m (at_ sp (s.readX sp - 16#64)) 8 (s.readX rb) ∧
          Stored m m' (at_ sp (s.readX sp - 16#64) + 8#64) 8 (s.readX ra) ∧
          ScalarResult (exec (.pushPair o) s) { s with mem := m' } (s.ip + 9#64) sp (s.readX sp - 16#64)) ∧
        ScalarResult (exec (.popPair o) s)
          ((s.writeX rb (memRead s.mem (s.readX sp) 8)).writeX ra (memRead s.mem (s.readX sp + 8#64) 8))
          (s.ip + 9#64) sp (s.readX sp + 16#64)
      | _, _, _ => Unimplemented (exec (.pushPair o) s) s ∧ Unimplemented (exec (.popPair o) s) s) ∧
    (match l.a, l.t with
      | .x fp, .x sp => ∃ m, Stored s.mem m (at_ sp (s.readX sp - 8#64)) 8 (s.readX fp) ∧
          ScalarResult (exec (.link l) s) ({ s with mem := m }.writeX fp (at_ sp (s.readX sp - 8#64)))
            (s.ip + 9#64) sp (at_ sp (s.readX sp - 8#64) - l.imm.setWidth 64)
      | _, _ => Unimplemented (exec (.link l) s) s) ∧
    match u.a, u.t with
    | .x fp, .x sp =>
      ScalarResult (exec (.unlink u) s) (s.writeX fp (memRead s.mem (at_ sp (s.readX fp)) 8)) (s.ip + 9#64) sp
        (at_ sp (s.readX fp) + 8#64)
    | _, _ => Unimplemented (exec (.unlink u) s) s

/-! ### Vector loads and stores -/

/-- The bytes of an element by Func4 (20 R78); the other codes raise Unimplemented (44 R413). -/
def Sys2Proof.elementBytes (f4 : BitVec 4) : Option Nat :=
  [some 1, some 2, some 4, some 8, none, none, none, some 8].getD f4.toNat none

/-- The mask and z of a vector load or store: STRIDE's; all ones where its A[0] is 0 (44 R441). -/
def Sys2Proof.transferMask (s : State) : Mask :=
  match s.mods.stride with
  | some st => if st.a.getLsbD 0 then s.readM st.m else BitVec.allOnes 64
  | none => BitVec.allOnes 64
def Sys2Proof.transferZ (s : State) : Bool := (s.mods.stride.map (·.z)).getD false

/-- The address of element number `y` of a strided transfer from `base`: STRIDE's Rc, a scalar register or a
sign-extended constant, times y; 0 without STRIDE (44 R441, R442; in the compressed forms 47 R641, R643 and log 24). -/
def Sys2Proof.strided (s : State) (base : Word) : Option (Nat → Word) :=
  match s.mods.stride with
  | none => some fun _ => base
  | some st => (scalarSource (·.signExtend 64) s st.c).map fun c y => base + c * BitVec.ofNat 64 y

/-- The address of element `e` of an indexed transfer from `base`: element e of the index vector, STRIDE's Rc;
0 without STRIDE (44 R441, R443). -/
def Sys2Proof.indexed (s : State) (base : Word) : Option (Nat → Word) :=
  match s.mods.stride with
  | none => some fun _ => base
  | some st => match st.c with
    | .v rc => some fun e => base + (s.readV rc)[e]?.getD 0#64
    | _ => none

/-- LDSx and LDxVX: an active element below VL gets the value at its address, sign-extended, or zero-extended
under z; an inactive one is kept, or zeroed under z (44 R441 to R443). CVLDSx and CVLDxVX: the active elements'
values, read at the y-th stride or at their own index, fill the target from element 0; the rest below VL is
zeroed under z and kept otherwise (47 R640 to R642). No memory changes; other forms raise Unimplemented. Which type
codes of base, target, stride and index are accepted, and that z counts without a mask, is deduced, the model's reading
(log 24). -/
def Obligations.VectorLoads : Prop :=
  ∀ (s : State) (f4 : BitVec 4) (o : LdD), s.mods.brmod = none →
    let act := activeBelow s (transferMask s)
    ∀ row ∈ ([(.ldsx f4 o, strided s, false, false), (.ldxvx f4 o, indexed s, false, false),
        (.cvldsx f4 o, strided s, true, false), (.cvldxvx f4 o, indexed s, true, true)] :
        List (Instr × (Word → Option (Nat → Word)) × Bool × Bool)),
      match elementBytes f4, o.a, o.t with
      | some n, .x ra, .v rt =>
        match row.2.1 (s.readX ra + s.displacement o.disp) with
        | none => Unimplemented (exec row.1 s) s
        | some ea => VectorResult (exec row.1 s) s (s.ip + 9#64) rt fun e =>
          if row.2.2.1 then
            match act[e.val]? with
            | some k => loaded (!transferZ s) n s.mem (ea (if row.2.2.2 then k.val else e.val))
            | none => if e.val < s.vl.toNat ∧ transferZ s = true then 0#64 else (s.readV rt)[e]
          else if e.val < s.vl.toNat then
            if (transferMask s).getLsbD e.val then loaded (!transferZ s) n s.mem (ea e.val)
            else if transferZ s then 0#64 else (s.readV rt)[e]
          else (s.readV rt)[e]
      | _, _, _ => Unimplemented (exec row.1 s) s

/-- The memory after the given values are stored at the given addresses, one after the other. -/
def Sys2Proof.storedAll (n : Nat) : List Host.Cell → List (Word × Word) → List Host.Cell → Prop
  | m, [], m' => m' = m
  | m, (a, w) :: r, m' => ∃ m1, Stored m m1 a n w ∧ storedAll n m1 r m'

/-- STSx and STxVX: the active elements below VL are stored at their addresses in ascending order, an inactive
one stores 0 under z and nothing otherwise (44 R444, R445). CVSTSx and CVSTxVX: the y-th active element is
stored at the y-th address, and under z every stored element of the source is then cleared (47 R640, R643,
R644); that the clearing comes after all stores is deduced, the model's reading (log 23). Nothing else changes; other
forms raise Unimplemented. Which type codes of base, source, stride and index are accepted, and that z counts without a
mask, is deduced too (log 24). -/
def Obligations.VectorStores : Prop :=
  ∀ (s : State) (f4 : BitVec 4) (o : StD), s.mods.brmod = none → Memory.wf s.mem = true →
    let act := activeBelow s (transferMask s)
    ∀ row ∈ ([(.stsx f4 o, strided s, false), (.stxvx f4 o, indexed s, false), (.cvstsx f4 o, strided s, true),
        (.cvstxvx f4 o, indexed s, true)] : List (Instr × (Word → Option (Nat → Word)) × Bool)),
      match elementBytes f4, o.a, o.b with
      | some n, .x ra, .v rb =>
        match row.2.1 (s.readX ra + s.displacement o.disp) with
        | none => Unimplemented (exec row.1 s) s
        | some ea =>
          let items : List (Word × Word) :=
            if row.2.2 then act.zipIdx.map fun p => (ea p.2, (s.readV rb)[p.1])
            else (List.finRange 64).filterMap fun e =>
              if e.val < s.vl.toNat then
                if (transferMask s).getLsbD e.val then some (ea e.val, (s.readV rb)[e])
                else if transferZ s then some (ea e.val, 0#64) else none
              else none
          ∃ m, storedAll n s.mem items m ∧
            VectorResult (exec row.1 s) { s with mem := m } (s.ip + 9#64) rb fun e =>
              if row.2.2 = true ∧ transferZ s = true ∧ e ∈ act then 0#64 else (s.readV rb)[e]
      | _, _, _ => Unimplemented (exec row.1 s) s

/-! ### Compressed instructions -/

/-- The 20-bit instructions, with no modifier before them. Operations leave their result in the target
(48 R684 to R690, R694 to R696); loads and stores move an octa at x29 or x30 plus eight times a signed
displacement (48 R679 to R682); branches and jumps go to a place relative to their own address, or to a
register read before the link register is written (48 R683, R691 to R693). IP is else five nybbles on. -/
def Obligations.CompressedInstructions : Prop :=
  ∀ (s : State) (r q : BitVec 5) (k : BitVec 7) (n : BitVec 5) (d : BitVec 10) (l : BitVec 2),
    s.mods.start = none → Memory.wf s.mem = true →
    let fp := s.readX 29#5 + k.signExtend 64 * 8#64
    let sp := s.readX 30#5 + k.signExtend 64 * 8#64
    (∀ row ∈ ([(.cMov q r, s.readX q), (.cAdd q r, s.readX r + s.readX q), (.cAnd q r, s.readX r &&& s.readX q),
        (.cAddi k r, s.readX r + (if r = 30#5 then k.signExtend 64 * 8#64 else k.signExtend 64)),
        (.cAndi k r, s.readX r &&& (0x1ffffffffffffff#57 ++ k)), (.cOri k r, s.readX r ||| (0#57 ++ k)),
        (.cLdi k r, k.signExtend 64), (.cSlli n r, BitVec.ofNat 64 ((s.readX r).toNat * 2 ^ n.toNat)),
        (.cSrli n r, BitVec.ofNat 64 ((s.readX r).toNat / 2 ^ n.toNat)),
        (.cSrai n r, BitVec.ofInt 64 ((s.readX r).toInt / 2 ^ n.toNat)),
        (.cLdoFp k r, memRead s.mem fp 8), (.cLdoSp k r, memRead s.mem sp 8)] : List (Instr × Word)),
      ScalarResult (exec row.1 s) s (s.ip + 5#64) r row.2) ∧
    StoreResult (exec (.cStoFp k r) s) s (s.ip + 5#64) fp 8 (s.readX r) ∧
    StoreResult (exec (.cStoSp k r) s) s (s.ip + 5#64) sp 8 (s.readX r) ∧
    OnlyIp (exec (.cBeqz k r) s) s (if s.readX r = 0#64 then s.ip + k.signExtend 64 else s.ip + 5#64) ∧
    OnlyIp (exec (.cBnez k r) s) s (if s.readX r = 0#64 then s.ip + 5#64 else s.ip + k.signExtend 64) ∧
    ScalarResult (exec (.cJmp r l) s) s (s.readX r) (l.setWidth 5) (s.ip + 5#64) ∧
    ScalarResult (exec (.cBal d l) s) s (s.ip + d.signExtend 64) (l.setWidth 5) (s.ip + 5#64)

end
end

