-- ==== Sys2Proof/Laws/Alu.lean ====
section
/-! SUPPORT. What each integer operation computes, in the terms of exact arithmetic and of single bits. -/

namespace Sys2Proof.Machine

/-! ### Comparison and sign -/

theorem ltS_iff (a b : Word) : ltS a b = true ↔ a.toInt < b.toInt := by simp [ltS]

theorem ltS_slt (a b : Word) : ltS a b = a.slt b := by simp [ltS, BitVec.slt]

theorem ltU_iff (a b : Word) : ltU a b = true ↔ a < b := by simp [ltU, BitVec.lt_def]

theorem not_ltS (a b : Word) : (!ltS a b) = b.sle a := by
  simp [ltS, BitVec.sle, ← decide_not]

theorem not_ltU (a b : Word) : (!ltU a b) = decide (b ≤ a) := by
  simp [ltU, BitVec.le_def, ← decide_not]

theorem ofInt_neg_toInt (a : Word) : BitVec.ofInt 64 (-a.toInt) = 0#64 - a := by
  rw [BitVec.ofInt_neg, BitVec.ofInt_toInt, BitVec.zero_sub]

theorem absWord_eq (a : Word) : absWord a = BitVec.ofInt 64 |a.toInt| := by
  unfold absWord
  split
  · rename_i h
    rw [ltS_iff] at h
    simp only [BitVec.toInt_zero] at h
    rw [abs_of_neg h, ofInt_neg_toInt]
  · rename_i h
    rw [ltS_iff] at h
    simp only [BitVec.toInt_zero, not_lt] at h
    rw [abs_of_nonneg h, BitVec.ofInt_toInt]

theorem nabsWord_eq (a : Word) : nabsWord a = BitVec.ofInt 64 (-|a.toInt|) := by
  unfold nabsWord
  split
  · rename_i h
    rw [ltS_iff] at h
    simp only [BitVec.toInt_zero] at h
    rw [abs_of_neg h, neg_neg, BitVec.ofInt_toInt]
  · rename_i h
    rw [ltS_iff] at h
    simp only [BitVec.toInt_zero, not_lt] at h
    rw [abs_of_nonneg h, ofInt_neg_toInt]

theorem mulOverflow_iff (a b : Word) :
    mulOverflow a b = true ↔ a.toInt * b.toInt < -(2 ^ 63) ∨ 2 ^ 63 ≤ a.toInt * b.toInt := by
  simp [mulOverflow]

theorem divOverflow_iff (a b : Word) : divOverflow a b = true ↔ a.toInt = -(2 ^ 63) ∧ b.toInt = -1 := by
  have h1 : (1#64 <<< 63).toInt = -(2 ^ 63) := by decide
  have h2 : (BitVec.allOnes 64).toInt = -1 := by decide
  simp only [divOverflow, Bool.and_eq_true, beq_iff_eq, ← h1, ← h2, BitVec.toInt_inj]

/-! ### Exact results -/

theorem add_exact (a b : Word) : a + b = BitVec.ofInt 64 (a.toInt + b.toInt) := by
  rw [BitVec.ofInt_add, BitVec.ofInt_toInt, BitVec.ofInt_toInt]

theorem sub_exact (a b : Word) : a - b = BitVec.ofInt 64 (a.toInt - b.toInt) := by
  rw [Int.sub_eq_add_neg, BitVec.ofInt_add, BitVec.ofInt_neg, BitVec.ofInt_toInt, BitVec.ofInt_toInt, BitVec.sub_eq_add_neg]

theorem mul_exact (a b : Word) : a * b = BitVec.ofInt 64 (a.toInt * b.toInt) := by
  rw [BitVec.ofInt_mul, BitVec.ofInt_toInt, BitVec.ofInt_toInt]

theorem mulu_exact (a b : Word) : a * b = BitVec.ofNat 64 (a.toNat * b.toNat) := by
  apply BitVec.eq_of_toNat_eq
  rw [BitVec.toNat_mul, BitVec.toNat_ofNat]

theorem cmp3_eq (a b : Word) :
    cmp3 a b = if a.slt b then BitVec.allOnes 64 else if a = b then 0#64 else 1#64 := by
  simp only [cmp3, ltS_slt]

theorem minWord_eq (a b : Word) : (if ltS a b then a else b) = if a.toInt ≤ b.toInt then a else b := by
  simp only [ltS_iff]
  split
  · rw [if_pos (by omega)]
  · split
    · exact BitVec.eq_of_toInt_eq (by omega)
    · rfl

theorem maxWord_eq (a b : Word) : (if ltS b a then a else b) = if a.toInt ≤ b.toInt then b else a := by
  simp only [ltS_iff]
  split
  · rw [if_neg (by omega)]
  · rw [if_pos (by omega)]

theorem ofBool_beq (a b : Word) : Word.ofBool (a == b) = if a = b then 1#64 else 0#64 := by
  simp [Word.ofBool]

theorem ofBool_bne (a b : Word) : Word.ofBool (a != b) = if a = b then 0#64 else 1#64 := by
  by_cases h : a = b <;> simp [Word.ofBool, h]

theorem zextLow_eq (n : Nat) (a : Word) : Word.zextLow n a = a &&& BitVec.ofNat 64 (2 ^ n - 1) := by
  apply BitVec.eq_of_toNat_eq
  have h1 : (2 ^ n - 1) % 2 ^ 64 = 2 ^ min n 64 - 1 := by
    rcases le_total n 64 with h | h
    · rw [min_eq_left h, Nat.mod_eq_of_lt]
      have := Nat.pow_le_pow_right (n := 2) (by omega) h
      have : 0 < 2 ^ n := by positivity
      omega
    · rw [min_eq_right h]
      obtain ⟨d, rfl⟩ := Nat.exists_eq_add_of_le h
      have : 0 < 2 ^ d := by positivity
      obtain ⟨e, he⟩ := Nat.exists_eq_add_of_lt this
      rw [pow_add, he]
      omega
  rw [BitVec.toNat_and, BitVec.toNat_ofNat, h1, Nat.and_two_pow_sub_one_eq_mod]
  rw [Word.zextLow, BitVec.toNat_setWidth, BitVec.toNat_setWidth]
  rcases le_total n 64 with h | h
  · rw [min_eq_left h, Nat.mod_eq_of_lt]
    exact lt_of_le_of_lt (Nat.mod_le _ _) a.isLt
  · rw [min_eq_right h, Nat.mod_eq_of_lt (b := 2 ^ n)]
    exact lt_of_lt_of_le a.isLt (Nat.pow_le_pow_right (by omega) h)

theorem zextLow_8 (a : Word) : Word.zextLow 8 a = a &&& 0xff#64 := zextLow_eq 8 a
theorem zextLow_16 (a : Word) : Word.zextLow 16 a = a &&& 0xffff#64 := zextLow_eq 16 a
theorem zextLow_32 (a : Word) : Word.zextLow 32 a = a &&& 0xffffffff#64 := zextLow_eq 32 a

theorem zero_append {m n : Nat} (x : BitVec n) : 0#m ++ x = x.setWidth (m + n) := by
  apply BitVec.eq_of_toNat_eq
  have h : x.toNat < 2 ^ (m + n) := lt_of_lt_of_le x.isLt (Nat.pow_le_pow_right (by omega) (by omega))
  rw [BitVec.toNat_append, BitVec.toNat_setWidth, Nat.mod_eq_of_lt h]
  simp

/-! ### Counting -/

theorem leadRun_false (a : Word) (k : Nat) (hk : k ≤ 64) :
    leadRun false a k = if a.toNat % 2 ^ k = 0 then k else k - 1 - Nat.log2 (a.toNat % 2 ^ k) := by
  induction k with
  | zero => simp [leadRun, Nat.mod_one]
  | succ j ih =>
    have hb : a.getLsbD j = (a.toNat % 2 ^ (j + 1)).testBit j := by
      rw [Nat.testBit_mod_two_pow]; simp [BitVec.getLsbD]
    have hs : a.toNat % 2 ^ (j + 1) = a.toNat % 2 ^ j + 2 ^ j * (a.getLsbD j).toNat := by
      rw [pow_succ, Nat.mod_mul, BitVec.getLsbD, Nat.testBit_eq_decide_div_mod_eq]
      rcases Nat.mod_two_eq_zero_or_one (a.toNat / 2 ^ j) with h | h <;> simp [h]
    have hlt : a.toNat % 2 ^ j < 2 ^ j := Nat.mod_lt _ (by positivity)
    unfold leadRun
    cases h : a.getLsbD j
    · rw [if_pos rfl, ih (by omega)]
      rw [h] at hs
      simp only [Bool.toNat_false, Nat.mul_zero, Nat.add_zero] at hs
      rw [hs]
      split
      · rfl
      · rename_i hne
        have := (Nat.log2_lt hne).2 hlt
        omega
    · rw [h] at hs
      simp only [Bool.toNat_true, Nat.mul_one] at hs
      have hne : a.toNat % 2 ^ (j + 1) ≠ 0 := by
        have : 0 < 2 ^ j := by positivity
        omega
      rw [if_neg (by simp), if_neg hne]
      have : Nat.log2 (a.toNat % 2 ^ (j + 1)) = j := by
        rw [Nat.log2_eq_iff hne]
        constructor
        · omega
        · rw [hs, pow_succ]; omega
      omega

theorem leadRun_not (a : Word) (k : Nat) (hk : k ≤ 64) : leadRun true a k = leadRun false (~~~a) k := by
  induction k with
  | zero => rfl
  | succ j ih =>
    unfold leadRun
    rw [ih (by omega)]
    have : (~~~a).getLsbD j = !a.getLsbD j := by
      rw [BitVec.getLsbD_not]; simp; omega
    rw [this]
    cases a.getLsbD j <;> rfl

theorem leadRun_64 (a : Word) : leadRun false a 64 = if a = 0#64 then 64 else 63 - Nat.log2 a.toNat := by
  rw [leadRun_false a 64 (le_refl _), Nat.mod_eq_of_lt a.isLt]
  simp only [← BitVec.toNat_inj, BitVec.toNat_zero]

theorem cntlzWord_eq (a : Word) :
    cntlzWord a = if a = 0#64 then 64#64 else BitVec.ofNat 64 (63 - Nat.log2 a.toNat) := by
  unfold cntlzWord
  rw [leadRun_64]
  split <;> rfl

theorem cntloWord_eq (a : Word) :
    cntloWord a = if ~~~a = 0#64 then 64#64 else BitVec.ofNat 64 (63 - Nat.log2 (~~~a).toNat) := by
  unfold cntloWord
  rw [leadRun_not a 64 (le_refl _), leadRun_64]
  split <;> rfl

theorem onesBelow_eq (a : Word) (k : Nat) : onesBelow a k = ((List.range k).filter a.getLsbD).length := by
  induction k with
  | zero => rfl
  | succ j ih =>
    rw [List.range_succ, List.filter_append, List.length_append, onesBelow, ih]
    cases h : a.getLsbD j <;> simp [h]

theorem cntpopWord_eq (a : Word) : cntpopWord a = BitVec.ofNat 64 ((List.range 64).filter a.getLsbD).length := by
  unfold cntpopWord
  rw [onesBelow_eq]

/-! ### Square root -/

theorem isqrtFrom_eq (x i r : Nat) (hr : r * r ≤ x) (hx : x < (r + 2 ^ i) * (r + 2 ^ i)) :
    isqrtFrom x i r = Nat.sqrt x := by
  induction i generalizing r with
  | zero =>
    rw [isqrtFrom]
    rw [Nat.eq_sqrt]
    simpa using ⟨hr, hx⟩
  | succ j ih =>
    rw [isqrtFrom]
    split
    · rename_i h
      apply ih _ h
      have : r + 2 ^ j + 2 ^ j = r + 2 ^ (j + 1) := by rw [pow_succ]; omega
      rwa [this]
    · rename_i h
      exact ih _ hr (by omega)

theorem sqrtWord_eq (a : Word) : sqrtWord a = BitVec.ofNat 64 (Nat.sqrt a.toNat) := by
  unfold sqrtWord
  rw [isqrtFrom_eq a.toNat 32 0 (by omega) (by have := a.isLt; simpa using this)]

/-! ### Products -/

theorem mulfWord_eq (a b : Word) :
    mulfWord a b = BitVec.ofNat 64 ((a.toNat % 2 ^ 24) * (b.toNat % 2 ^ 16)) := by
  unfold mulfWord Word.zextLow
  apply BitVec.eq_of_toNat_eq
  simp [BitVec.toNat_setWidth, BitVec.toNat_mul, BitVec.toNat_ofNat]

theorem mulh_aux (p : Int) : BitVec.ofInt 64 (p / 2 ^ 64) = (BitVec.ofInt 128 p).extractLsb' 64 64 := by
  apply BitVec.eq_of_toNat_eq
  rw [BitVec.extractLsb'_toNat, BitVec.toNat_ofInt, BitVec.toNat_ofInt, Nat.shiftRight_eq_div_pow]
  omega

theorem mulhWord_eq (a b : Word) :
    mulhWord a b = (BitVec.ofInt 128 (a.toInt * b.toInt)).extractLsb' 64 64 := mulh_aux _

theorem mulsuhWord_eq (a b : Word) :
    mulsuhWord a b = (BitVec.ofInt 128 (a.toInt * (b.toNat : Int))).extractLsb' 64 64 := mulh_aux _

theorem muluhWord_eq (a b : Word) :
    muluhWord a b = (BitVec.ofNat 128 (a.toNat * b.toNat)).extractLsb' 64 64 := by
  apply BitVec.eq_of_toNat_eq
  unfold muluhWord
  rw [BitVec.extractLsb'_toNat, BitVec.toNat_ofNat, BitVec.toNat_ofNat, Nat.shiftRight_eq_div_pow]
  omega

/-! ### Shifts -/

theorem sllWord_eq (a b : Word) : sllWord a b = BitVec.ofNat 64 (a.toNat * 2 ^ (b.toNat % 64)) := by
  apply BitVec.eq_of_toNat_eq
  simp [sllWord, Nat.shiftLeft_eq]

theorem srlWord_eq (a b : Word) : srlWord a b = BitVec.ofNat 64 (a.toNat / 2 ^ (b.toNat % 64)) := by
  apply BitVec.eq_of_toNat_eq
  rw [srlWord, BitVec.toNat_ushiftRight, Nat.shiftRight_eq_div_pow, BitVec.toNat_ofNat]
  exact (Nat.mod_eq_of_lt (lt_of_le_of_lt (Nat.div_le_self _ _) a.isLt)).symm

theorem sshiftRight_eq_ofInt {w : Nat} (a : BitVec w) (n : Nat) :
    a.sshiftRight n = BitVec.ofInt w (a.toInt / 2 ^ n) := by
  unfold BitVec.sshiftRight
  rw [Int.shiftRight_eq_div_pow]
  norm_cast

theorem sraWord_eq (a b : Word) : sraWord a b = BitVec.ofInt 64 (a.toInt / 2 ^ (b.toNat % 64)) :=
  sshiftRight_eq_ofInt a _

theorem rolWord_eq (a b : Word) : rolWord a b = a <<< (b.toNat % 64) ||| a >>> (64 - b.toNat % 64) := by
  unfold rolWord
  rw [BitVec.rotateLeft_eq_rotateLeftAux_of_lt (Nat.mod_lt _ (by decide))]
  rfl

theorem rorWord_eq (a b : Word) : rorWord a b = a >>> (b.toNat % 64) ||| a <<< (64 - b.toNat % 64) := by
  unfold rorWord
  rw [BitVec.rotateRight_eq_rotateRightAux_of_lt (Nat.mod_lt _ (by decide))]
  rfl

theorem sllpWord_eq (a b c : Word) :
    sllpWord a b c = a <<< (b.toNat % 64) ||| c >>> (64 - b.toNat % 64) := by
  unfold sllpWord
  have hn : b.toNat % 64 < 64 := Nat.mod_lt _ (by decide)
  generalize b.toNat % 64 = n at hn
  apply BitVec.eq_of_getLsbD_eq
  intro i hi
  simp only [BitVec.getLsbD_extractLsb', BitVec.getLsbD_or, BitVec.getLsbD_shiftLeft, BitVec.getLsbD_ushiftRight,
    BitVec.getLsbD_append]
  have h1 : 64 + i < 128 := by omega
  have h2 : ¬64 + i < n := by omega
  simp only [hi, h1, h2, decide_true, decide_false, Bool.not_false, Bool.true_and]
  by_cases h : i < n
  · have h3 : 64 + i - n < 64 := by omega
    have h4 : 64 + i - n = 64 - n + i := by omega
    rw [if_pos h3, h4]
    simp [h]
  · have h3 : ¬64 + i - n < 64 := by omega
    have h4 : 64 + i - n - 64 = i - n := by omega
    rw [if_neg h3, h4]
    have h5 : c.getLsbD (64 - n + i) = false := BitVec.getLsbD_of_ge _ _ (by omega)
    simp [h, h5]

/-! ### Division -/

theorem divWord_of_ne {a b : Word} (h : b ≠ 0#64) : divWord a b = a.sdiv b := by
  unfold divWord
  rw [if_neg h]
  apply BitVec.eq_of_toInt_eq
  rw [BitVec.toInt_sdiv, BitVec.toInt_ofInt]

theorem divrWord_of_ne {a k : Word} (h : a ≠ 0#64) : divrWord a k = k.sdiv a := by
  unfold divrWord
  rw [if_neg h]
  apply BitVec.eq_of_toInt_eq
  rw [BitVec.toInt_sdiv, BitVec.toInt_ofInt]

theorem divuWord_of_ne {a b : Word} (h : b ≠ 0#64) : divuWord a b = a / b := by
  unfold divuWord
  rw [if_neg h]
  apply BitVec.eq_of_toNat_eq
  rw [BitVec.toNat_udiv, BitVec.toNat_ofNat, Nat.mod_eq_of_lt]
  exact lt_of_le_of_lt (Nat.div_le_self _ _) a.isLt

theorem remWord_of_ne {a b : Word} (h : b ≠ 0#64) : remWord a b = a.srem b := by
  unfold remWord
  rw [if_neg h, ← BitVec.toInt_srem, BitVec.ofInt_toInt]

theorem remuWord_of_ne {a b : Word} (h : b ≠ 0#64) : remuWord a b = a % b := by
  unfold remuWord
  rw [if_neg h]
  apply BitVec.eq_of_toNat_eq
  rw [BitVec.toNat_umod, BitVec.toNat_ofNat, Nat.mod_eq_of_lt]
  exact lt_of_le_of_lt (Nat.mod_le _ _) a.isLt

/-! ### Bit matrices and bytes -/

theorem getLsbD_wordOfBits (f : Nat → Bool) (n k : Nat) (hn : n ≤ 64) :
    (wordOfBits f n).getLsbD k = (decide (k < n) && f k) := by
  induction n with
  | zero => simp [wordOfBits]
  | succ j ih =>
    rw [wordOfBits, BitVec.getLsbD_or, ih (by omega)]
    by_cases hk : k = j
    · subst hk
      cases hf : f k
      · simp
      · simp [BitVec.getLsbD_shiftLeft]
        omega
    · have h1 : (if f j then 1#64 <<< j else 0#64).getLsbD k = false := by
        split
        · rw [BitVec.getLsbD_shiftLeft, BitVec.getLsbD_one]
          simp
          omega
        · simp
      rw [h1, Bool.or_false]
      congr 1
      simp only [decide_eq_decide]
      omega

theorem matBit_wordOfMatrix (f : Nat → Nat → Bool) (i j : Nat) (hi : i < 8) (hj : j < 8) :
    matBit (wordOfMatrix f) i j = f i j := by
  unfold matBit wordOfMatrix
  rw [getLsbD_wordOfBits _ _ _ (le_refl _)]
  have h1 : 63 - (8 * i + j) < 64 := by omega
  have h2 : (63 - (63 - (8 * i + j))) / 8 = i := by omega
  have h3 : (63 - (63 - (8 * i + j))) % 8 = j := by omega
  simp only [h1, h2, h3, decide_true, Bool.true_and]

theorem foldl_or (f : Nat → Bool) (l : List Nat) (b : Bool) :
    l.foldl (fun acc k => or acc (f k)) b = (b || ((l.filter f).length != 0)) := by
  induction l generalizing b with
  | nil => simp
  | cons k r ih =>
    rw [List.foldl_cons, ih]
    cases h : f k <;> simp [h]

theorem foldl_xor (f : Nat → Bool) (l : List Nat) (b : Bool) :
    l.foldl (fun acc k => xor acc (f k)) b = xor b ((l.filter f).length % 2 == 1) := by
  induction l generalizing b with
  | nil => simp
  | cons k r ih =>
    rw [List.foldl_cons, ih]
    cases h : f k
    · simp [h]
    · simp only [List.filter_cons, h, if_true, List.length_cons]
      rcases Nat.mod_two_eq_zero_or_one (r.filter f).length with h2 | h2 <;>
        simp [Nat.add_mod, h2]

theorem matBit_matMul_or (a b : Word) (i j : Nat) (hi : i < 8) (hj : j < 8) :
    matBit (matMul or a b) i j =
      (((List.range 8).filter fun k => matBit a i k && matBit b k j).length != 0) := by
  rw [matMul, matBit_wordOfMatrix _ _ _ hi hj, foldl_or]
  simp

theorem matBit_matMul_xor (a b : Word) (i j : Nat) (hi : i < 8) (hj : j < 8) :
    matBit (matMul xor a b) i j =
      (((List.range 8).filter fun k => matBit a i k && matBit b k j).length % 2 == 1) := by
  rw [matMul, matBit_wordOfMatrix _ _ _ hi hj, foldl_xor]
  simp

theorem matBit_matMulTransposed (join : Bool → Bool → Bool) (a b : Word) (i j : Nat) (hi : i < 8) (hj : j < 8) :
    matBit (matMulTransposed join a b) i j = matBit (matMul join a b) j i := by
  show matBit (transpose (matMul join a b)) i j = _
  rw [transpose, matBit_wordOfMatrix _ _ _ hi hj]

theorem extract_bytes (b : Nat → Byte) (k : Nat) (hk : k < 8) :
    (b 7 ++ b 6 ++ b 5 ++ b 4 ++ b 3 ++ b 2 ++ b 1 ++ b 0).extractLsb' (8 * k) 8 = b k := by
  apply BitVec.eq_of_getLsbD_eq
  intro i hi
  simp only [BitVec.getLsbD_extractLsb', BitVec.getLsbD_append]
  interval_cases k <;> interval_cases i <;> simp only [Nat.reduceMul, Nat.reduceAdd, Nat.reduceSub,
      Nat.reduceLT, decide_true, Bool.true_and, if_true, if_false]

theorem extract_permWord (a sel : Word) (k : Nat) (hk : k < 8) :
    (permWord a sel).extractLsb' (8 * k) 8 = a.extractLsb' (8 * (sel.extractLsb' (3 * k) 3).toNat) 8 :=
  extract_bytes (fun k => a.extractLsb' (8 * (sel.extractLsb' (3 * k) 3).toNat) 8) k hk

/-! ### Searches -/

theorem fieldIndex_some {w n k : Nat} {key : BitVec w} {a : Word} (h : fieldIndex n key a = some k) :
    k < n ∧ a.extractLsb' (w * k) w = key ∧ ∀ j < k, a.extractLsb' (w * j) w ≠ key := by
  unfold fieldIndex at h
  rw [List.find?_range_eq_some] at h
  obtain ⟨h1, h2, h3⟩ := h
  exact ⟨List.mem_range.1 h2, by simpa using h1, fun j hj => by simpa using h3 j hj⟩

theorem fieldIndex_none {w n : Nat} {key : BitVec w} {a : Word} (h : fieldIndex n key a = none) (k : Nat)
    (hk : k < n) : a.extractLsb' (w * k) w ≠ key := by
  unfold fieldIndex at h
  rw [List.find?_eq_none] at h
  simpa using h k (List.mem_range.2 hk)

/-! ### Bit fields -/

theorem fieldWidth_le (d : Word) : 1 ≤ fieldWidth d ∧ fieldWidth d ≤ 64 := by
  unfold fieldWidth
  omega

theorem getLsbD_lowMask (n k : Nat) (hn : n ≤ 64) :
    (BitVec.ofNat 64 (2 ^ n - 1)).getLsbD k = decide (k < n) := by
  rw [BitVec.getLsbD_ofNat, Nat.testBit_two_pow_sub_one]
  by_cases h : k < n
  · simp [h]; omega
  · simp [h]

theorem getLsbD_depWord (a b c d : Word) (k : Nat) (hk : k < 64) :
    (depWord a b c d).getLsbD k =
      if c.toNat % 64 ≤ k ∧ k < c.toNat % 64 + fieldWidth d then b.getLsbD (k - c.toNat % 64)
      else a.getLsbD k := by
  unfold depWord
  have hn : c.toNat % 64 < 64 := Nat.mod_lt _ (by decide)
  generalize c.toNat % 64 = n at hn
  simp only [BitVec.getLsbD_or, BitVec.getLsbD_and, BitVec.getLsbD_not, BitVec.getLsbD_shiftLeft, hk,
    getLsbD_lowMask _ _ (fieldWidth_le d).2]
  by_cases h1 : n ≤ k
  · have h2 : ¬k < n := by omega
    by_cases h3 : k < n + fieldWidth d
    · have h4 : k - n < fieldWidth d := by omega
      simp [h1, h2, h3, h4]
    · have h4 : ¬k - n < fieldWidth d := by omega
      simp [h2, h3, h4]
  · have h2 : k < n := by omega
    simp [h1, h2]

theorem getLsbD_fieldSource (a b c : Word) (k : Nat) (hk : k < 64) :
    (fieldSource a b c).getLsbD k = (b ++ a : BitVec 128).getLsbD (c.toNat % 128 + k) := by
  unfold fieldSource
  simp [hk, BitVec.getLsbD_ushiftRight]

theorem getLsbD_extuWord (a b c d : Word) (k : Nat) (hk : k < 64) :
    (extuWord a b c d).getLsbD k =
      (decide (k < fieldWidth d) && (b ++ a : BitVec 128).getLsbD (c.toNat % 128 + k)) := by
  unfold extuWord
  have hw := fieldWidth_le d
  rw [BitVec.getLsbD_ushiftRight, BitVec.getLsbD_shiftLeft]
  by_cases h : k < fieldWidth d
  · have h1 : 64 - fieldWidth d + k < 64 := by omega
    have h2 : ¬64 - fieldWidth d + k < 64 - fieldWidth d := by omega
    have h3 : 64 - fieldWidth d + k - (64 - fieldWidth d) = k := by omega
    simp only [h, h1, h2, h3, decide_true, decide_false, Bool.not_false, Bool.true_and]
    rw [getLsbD_fieldSource _ _ _ _ hk]
  · have h1 : ¬64 - fieldWidth d + k < 64 := by omega
    simp [h, h1]

theorem getLsbD_extWord (a b c d : Word) (k : Nat) (hk : k < 64) :
    (extWord a b c d).getLsbD k =
      (b ++ a : BitVec 128).getLsbD (c.toNat % 128 + min k (fieldWidth d - 1)) := by
  unfold extWord
  have hw := fieldWidth_le d
  rw [BitVec.getLsbD_sshiftRight]
  have h0 : ¬64 ≤ k := by omega
  simp only [h0, decide_false, Bool.not_false, Bool.true_and]
  split
  · rename_i h
    have h1 : k < fieldWidth d := by omega
    rw [BitVec.getLsbD_shiftLeft]
    have h2 : ¬64 - fieldWidth d + k < 64 - fieldWidth d := by omega
    have h3 : 64 - fieldWidth d + k - (64 - fieldWidth d) = k := by omega
    have h4 : min k (fieldWidth d - 1) = k := by omega
    simp only [h, h2, h3, h4, decide_true, decide_false, Bool.not_false, Bool.true_and]
    rw [getLsbD_fieldSource _ _ _ _ hk]
  · rename_i h
    rw [BitVec.msb_eq_getLsbD_last, BitVec.getLsbD_shiftLeft]
    have h2 : ¬64 - 1 < 64 - fieldWidth d := by omega
    have h3 : 64 - 1 - (64 - fieldWidth d) = fieldWidth d - 1 := by omega
    have h4 : min k (fieldWidth d - 1) = fieldWidth d - 1 := by omega
    have h5 : 64 - 1 < 64 := by omega
    simp only [h2, h3, h4, h5, decide_true, decide_false, Bool.not_false, Bool.true_and]
    rw [getLsbD_fieldSource _ _ _ _ (by omega)]

/-- The field FFO looks at. -/
def ffoField (a c d : Word) : Word := ((a >>> (c.toNat % 64)) <<< (64 - fieldWidth d)) >>> (64 - fieldWidth d)

theorem getLsbD_ffoField (a c d : Word) (k : Nat) :
    (ffoField a c d).getLsbD k = (decide (k < fieldWidth d) && a.getLsbD (c.toNat % 64 + k)) := by
  unfold ffoField
  have hw := fieldWidth_le d
  rw [BitVec.getLsbD_ushiftRight, BitVec.getLsbD_shiftLeft]
  by_cases h : k < fieldWidth d
  · have h1 : 64 - fieldWidth d + k < 64 := by omega
    have h2 : ¬64 - fieldWidth d + k < 64 - fieldWidth d := by omega
    have h3 : 64 - fieldWidth d + k - (64 - fieldWidth d) = k := by omega
    simp only [h, h1, h2, h3, decide_true, decide_false, Bool.not_false, Bool.true_and]
    rw [BitVec.getLsbD_ushiftRight]
  · have h1 : ¬64 - fieldWidth d + k < 64 := by omega
    simp [h, h1]

/-- The highest set bit of a word that is not 0. -/
theorem log2_highest (a : Word) (h : a ≠ 0#64) :
    a.getLsbD (Nat.log2 a.toNat) = true ∧ ∀ j, Nat.log2 a.toNat < j → a.getLsbD j = false := by
  have hne : a.toNat ≠ 0 := by
    intro e
    exact h (BitVec.eq_of_toNat_eq (by simpa using e))
  constructor
  · rw [BitVec.getLsbD]
    exact Nat.testBit_log2 hne
  · intro j hj
    rw [BitVec.getLsbD]
    apply Nat.testBit_lt_two_pow
    exact lt_of_lt_of_le (Nat.lt_log2_self) (Nat.pow_le_pow_right (by omega) hj)

theorem highest_bit (a : Word) (h : a ≠ 0#64) :
    63 - leadRun false a 64 = Nat.log2 a.toNat ∧ Nat.log2 a.toNat < 64 := by
  have hne : a.toNat ≠ 0 := by
    intro e
    exact h (BitVec.eq_of_toNat_eq (by simpa using e))
  have h1 : Nat.log2 a.toNat < 64 := (Nat.log2_lt hne).2 a.isLt
  rw [leadRun_64, if_neg h]
  omega

theorem ffoWord_cases (a c d : Word) :
    (∃ k, (ffoWord a c d).toNat = k ∧ k < fieldWidth d ∧ a.getLsbD (c.toNat % 64 + k) = true ∧
        ∀ j, k < j → j < fieldWidth d → a.getLsbD (c.toNat % 64 + j) = false) ∨
      (ffoWord a c d = BitVec.allOnes 64 ∧ ∀ j < fieldWidth d, a.getLsbD (c.toNat % 64 + j) = false) := by
  have hf : ffoWord a c d = if ffoField a c d = 0#64 then BitVec.allOnes 64
      else BitVec.ofNat 64 (63 - leadRun false (ffoField a c d) 64) := rfl
  rw [hf]
  split
  · rename_i h
    refine .inr ⟨rfl, fun j hj => ?_⟩
    have := getLsbD_ffoField a c d j
    rw [h] at this
    simpa [hj] using this.symm
  · rename_i h
    left
    obtain ⟨h1, h2⟩ := highest_bit _ h
    obtain ⟨h3, h4⟩ := log2_highest _ h
    rw [getLsbD_ffoField, Bool.and_eq_true, decide_eq_true_iff] at h3
    refine ⟨_, rfl, ?_⟩
    rw [h1, BitVec.toNat_ofNat, Nat.mod_eq_of_lt (by omega)]
    refine ⟨h3.1, h3.2, fun j hj hw => ?_⟩
    have := h4 j hj
    rw [getLsbD_ffoField] at this
    simpa [hw] using this

/-! ### Blending -/

theorem blendWord_eq (a b c : Word) : blendWord a b c =
    (let mix (i : Nat) : BitVec 8 :=
       BitVec.ofNat 8 (((a.extractLsb' i 8).toNat * (c.extractLsb' 0 8).toNat +
         (b.extractLsb' i 8).toNat * (255 - (c.extractLsb' 0 8).toNat)) / 256)
     a.extractLsb' 24 40 ++ mix 16 ++ mix 8 ++ mix 0) := by
  have h (k : Nat) : blendByte (a.extractLsb' k 8) (b.extractLsb' k 8) (c.extractLsb' 0 8) =
      BitVec.ofNat 8 (((a.extractLsb' k 8).toNat * (c.extractLsb' 0 8).toNat +
         (b.extractLsb' k 8).toNat * (255 - (c.extractLsb' 0 8).toNat)) / 256) := by
    unfold blendByte
    rw [BitVec.toNat_not]
  unfold blendWord
  simp only [h]

/-! ### Searches over a vector -/

theorem searchVector_none {w : Nat} {n : Nat} {key : Fin 64 → BitVec w} {r : BitVec 5} {s : State}
    (h : searchVector n key r s = none) (e : Fin 64) (he : s.active s.imodMask.1 e = true) :
    fieldIndex n (key e) (s.readV r)[e] = none := by
  unfold searchVector at h
  rw [List.findSome?_eq_none_iff] at h
  simpa [he] using h e (List.mem_finRange e)

theorem searchVector_some {w : Nat} {n x : Nat} {key : Fin 64 → BitVec w} {r : BitVec 5} {s : State}
    (h : searchVector n key r s = some x) : ∃ e k, s.active s.imodMask.1 e = true ∧
      fieldIndex n (key e) (s.readV r)[e] = some k ∧ x = n * e.val + k ∧
      ∀ d : Fin 64, d.val < e.val → s.active s.imodMask.1 d = true →
        fieldIndex n (key d) (s.readV r)[d] = none := by
  unfold searchVector at h
  rw [List.findSome?_eq_some_iff] at h
  obtain ⟨l1, e, l2, hl, he, hb⟩ := h
  cases ha : s.active s.imodMask.1 e with
  | false => simp [ha] at he
  | true =>
    rw [if_pos ha, Option.map_eq_some_iff] at he
    obtain ⟨k, hk, rfl⟩ := he
    refine ⟨e, k, ha, hk, rfl, fun d hd hda => ?_⟩
    have hmem : d ∈ l1 := by
      have hs : (l1 ++ e :: l2).Pairwise (· < ·) := hl ▸ List.pairwise_lt_finRange 64
      have hd' : d ∈ l1 ++ e :: l2 := hl ▸ List.mem_finRange d
      rw [List.pairwise_append] at hs
      rcases List.mem_append.1 hd' with h | h
      · exact h
      · exfalso
        rcases List.mem_cons.1 h with rfl | h
        · omega
        · have := (List.pairwise_cons.1 hs.2.1).1 d h
          have : e.val < d.val := this
          omega
    simpa [hda] using hb d hmem

end Sys2Proof.Machine
end

