-- ==== Sys2Proof/Laws/Dispatch.lean ====
section
/-! SUPPORT. The meaning of each instruction, so that no proof unfolds `exec`. -/

namespace Sys2Proof.Machine

@[simp] theorem exec_brk (cause : BitVec 8) (s : State) : exec (.brk cause) s = execBrk cause s := rfl
@[simp] theorem exec_cntlz (v : Bool) (o : R1) (s : State) : exec (.cntlz v o) s = execCntlz v o s := rfl
@[simp] theorem exec_cntlo (v : Bool) (o : R1) (s : State) : exec (.cntlo v o) s = execCntlo v o s := rfl
@[simp] theorem exec_cntpop (v : Bool) (o : R1) (s : State) : exec (.cntpop v o) s = execCntpop v o s := rfl
@[simp] theorem exec_com (v : Bool) (o : R1) (s : State) : exec (.com v o) s = execCom v o s := rfl
@[simp] theorem exec_not (v : Bool) (o : R1) (s : State) : exec (.not v o) s = execNot v o s := rfl
@[simp] theorem exec_neg (v : Bool) (o : R1) (s : State) : exec (.neg v o) s = execNeg v o s := rfl
@[simp] theorem exec_abs (v : Bool) (o : R1) (s : State) : exec (.abs v o) s = execAbs v o s := rfl
@[simp] theorem exec_nabs (v : Bool) (o : R1) (s : State) : exec (.nabs v o) s = execNabs v o s := rfl
@[simp] theorem exec_sqrt (v : Bool) (o : R1) (s : State) : exec (.sqrt v o) s = execSqrt v o s := rfl
@[simp] theorem exec_tst (v : Bool) (o : R1) (s : State) : exec (.tst v o) s = execTst v o s := rfl
@[simp] theorem exec_zxb (v : Bool) (o : R1) (s : State) : exec (.zxb v o) s = execZxb v o s := rfl
@[simp] theorem exec_zxw (v : Bool) (o : R1) (s : State) : exec (.zxw v o) s = execZxw v o s := rfl
@[simp] theorem exec_zxt (v : Bool) (o : R1) (s : State) : exec (.zxt v o) s = execZxt v o s := rfl
@[simp] theorem exec_ptrinc (v : Bool) (o : R1) (s : State) : exec (.ptrinc v o) s = execPtrinc v o s := rfl
@[simp] theorem exec_transform (v : Bool) (o : R1) (s : State) : exec (.transform v o) s = execTransform v o s := rfl
@[simp] theorem exec_sxb (v : Bool) (o : R1) (s : State) : exec (.sxb v o) s = execSxb v o s := rfl
@[simp] theorem exec_sxw (v : Bool) (o : R1) (s : State) : exec (.sxw v o) s = execSxw v o s := rfl
@[simp] theorem exec_sxt (v : Bool) (o : R1) (s : State) : exec (.sxt v o) s = execSxt v o s := rfl
@[simp] theorem exec_clip (v : Bool) (o : R1) (s : State) : exec (.clip v o) s = execClip v o s := rfl
@[simp] theorem exec_v2bits (o : R1) (s : State) : exec (.v2bits o) s = execV2bits o s := rfl
@[simp] theorem exec_bits2v (o : R1) (s : State) : exec (.bits2v o) s = execBits2v o s := rfl
@[simp] theorem exec_vcmprss (o : R1) (s : State) : exec (.vcmprss o) s = execVcmprss o s := rfl
@[simp] theorem exec_vcidx (o : R1) (s : State) : exec (.vcidx o) s = execVcidx o s := rfl
@[simp] theorem exec_vscan (o : R1) (s : State) : exec (.vscan o) s = execVscan o s := rfl
@[simp] theorem exec_and (v : Bool) (o : R2) (s : State) : exec (.and v o) s = execAnd v o s := rfl
@[simp] theorem exec_or (v : Bool) (o : R2) (s : State) : exec (.or v o) s = execOr v o s := rfl
@[simp] theorem exec_xor (v : Bool) (o : R2) (s : State) : exec (.xor v o) s = execXor v o s := rfl
@[simp] theorem exec_add (v : Bool) (o : R2) (s : State) : exec (.add v o) s = execAdd v o s := rfl
@[simp] theorem exec_sub (v : Bool) (o : R2) (s : State) : exec (.sub v o) s = execSub v o s := rfl
@[simp] theorem exec_nand (v : Bool) (o : R2) (s : State) : exec (.nand v o) s = execNand v o s := rfl
@[simp] theorem exec_nor (v : Bool) (o : R2) (s : State) : exec (.nor v o) s = execNor v o s := rfl
@[simp] theorem exec_xnor (v : Bool) (o : R2) (s : State) : exec (.xnor v o) s = execXnor v o s := rfl
@[simp] theorem exec_mulu (v : Bool) (o : R2) (s : State) : exec (.mulu v o) s = execMulu v o s := rfl
@[simp] theorem exec_mulh (v : Bool) (o : R2) (s : State) : exec (.mulh v o) s = execMulh v o s := rfl
@[simp] theorem exec_divu (v : Bool) (o : R2) (s : State) : exec (.divu v o) s = execDivu v o s := rfl
@[simp] theorem exec_rem (v : Bool) (o : R2) (s : State) : exec (.rem v o) s = execRem v o s := rfl
@[simp] theorem exec_remu (v : Bool) (o : R2) (s : State) : exec (.remu v o) s = execRemu v o s := rfl
@[simp] theorem exec_remsu (v : Bool) (o : R2) (s : State) : exec (.remsu v o) s = execRemsu v o s := rfl
@[simp] theorem exec_mulsu (v : Bool) (o : R2) (s : State) : exec (.mulsu v o) s = execMulsu v o s := rfl
@[simp] theorem exec_perm (v : Bool) (o : R2) (s : State) : exec (.perm v o) s = execPerm v o s := rfl
@[simp] theorem exec_dif (v : Bool) (o : R2) (s : State) : exec (.dif v o) s = execDif v o s := rfl
@[simp] theorem exec_wydndx (v : Bool) (o : R2) (s : State) : exec (.wydndx v o) s = execWydndx v o s := rfl
@[simp] theorem exec_mulf (v : Bool) (o : R2) (s : State) : exec (.mulf v o) s = execMulf v o s := rfl
@[simp] theorem exec_mulsuh (v : Bool) (o : R2) (s : State) : exec (.mulsuh v o) s = execMulsuh v o s := rfl
@[simp] theorem exec_muluh (v : Bool) (o : R2) (s : State) : exec (.muluh v o) s = execMuluh v o s := rfl
@[simp] theorem exec_cmp (v : Bool) (o : R2) (s : State) : exec (.cmp v o) s = execCmp v o s := rfl
@[simp] theorem exec_u21ndx (v : Bool) (o : R2) (s : State) : exec (.u21ndx v o) s = execU21ndx v o s := rfl
@[simp] theorem exec_seq (v : Bool) (o : R2) (s : State) : exec (.seq v o) s = execSeq v o s := rfl
@[simp] theorem exec_sne (v : Bool) (o : R2) (s : State) : exec (.sne v o) s = execSne v o s := rfl
@[simp] theorem exec_min (v : Bool) (o : R2) (s : State) : exec (.min v o) s = execMin v o s := rfl
@[simp] theorem exec_max (v : Bool) (o : R2) (s : State) : exec (.max v o) s = execMax v o s := rfl
@[simp] theorem exec_slt (v : Bool) (o : R2) (s : State) : exec (.slt v o) s = execSlt v o s := rfl
@[simp] theorem exec_sge (v : Bool) (o : R2) (s : State) : exec (.sge v o) s = execSge v o s := rfl
@[simp] theorem exec_sltu (v : Bool) (o : R2) (s : State) : exec (.sltu v o) s = execSltu v o s := rfl
@[simp] theorem exec_sgeu (v : Bool) (o : R2) (s : State) : exec (.sgeu v o) s = execSgeu v o s := rfl
@[simp] theorem exec_mor (v : Bool) (o : R2) (s : State) : exec (.mor v o) s = execMor v o s := rfl
@[simp] theorem exec_mxor (v : Bool) (o : R2) (s : State) : exec (.mxor v o) s = execMxor v o s := rfl
@[simp] theorem exec_mort (v : Bool) (o : R2) (s : State) : exec (.mort v o) s = execMort v o s := rfl
@[simp] theorem exec_mxort (v : Bool) (o : R2) (s : State) : exec (.mxort v o) s = execMxort v o s := rfl
@[simp] theorem exec_plot (v : Bool) (o : R2) (s : State) : exec (.plot v o) s = execPlot v o s := rfl
@[simp] theorem exec_sll (v : Bool) (o : R2) (s : State) : exec (.sll v o) s = execSll v o s := rfl
@[simp] theorem exec_srl (v : Bool) (o : R2) (s : State) : exec (.srl v o) s = execSrl v o s := rfl
@[simp] theorem exec_sra (v : Bool) (o : R2) (s : State) : exec (.sra v o) s = execSra v o s := rfl
@[simp] theorem exec_rol (v : Bool) (o : R2) (s : State) : exec (.rol v o) s = execRol v o s := rfl
@[simp] theorem exec_ror (v : Bool) (o : R2) (s : State) : exec (.ror v o) s = execRor v o s := rfl
@[simp] theorem exec_mul (v : Bool) (opt : BitVec 2) (o : R2) (s : State) : exec (.mul v opt o) s = execMul v opt o s := rfl
@[simp] theorem exec_div (v : Bool) (opt : BitVec 2) (o : R2) (s : State) : exec (.div v opt o) s = execDiv v opt o s := rfl
@[simp] theorem exec_divsu (v : Bool) (opt : BitVec 2) (o : R2) (s : State) : exec (.divsu v opt o) s = execDivsu v opt o s := rfl
@[simp] theorem exec_myst (o : R2) (s : State) : exec (.myst o) s = execMyst o s := rfl
@[simp] theorem exec_rwCoeff (o : R2) (s : State) : exec (.rwCoeff o) s = execRwCoeff o s := rfl
@[simp] theorem exec_slli (v : Bool) (o : R2I) (s : State) : exec (.slli v o) s = execSlli v o s := rfl
@[simp] theorem exec_srli (v : Bool) (o : R2I) (s : State) : exec (.srli v o) s = execSrli v o s := rfl
@[simp] theorem exec_srai (v : Bool) (o : R2I) (s : State) : exec (.srai v o) s = execSrai v o s := rfl
@[simp] theorem exec_roli (v : Bool) (o : R2I) (s : State) : exec (.roli v o) s = execRoli v o s := rfl
@[simp] theorem exec_rori (v : Bool) (o : R2I) (s : State) : exec (.rori v o) s = execRori v o s := rfl
@[simp] theorem exec_mulfDuplicate (v : Bool) (o : R2) (s : State) : exec (.mulfDuplicate v o) s = execMulfDuplicate v o s := rfl
@[simp] theorem exec_vsllv (o : R2) (s : State) : exec (.vsllv o) s = execVsllv o s := rfl
@[simp] theorem exec_vsrlv (o : R2) (s : State) : exec (.vsrlv o) s = execVsrlv o s := rfl
@[simp] theorem exec_vex (o : R2) (s : State) : exec (.vex o) s = execVex o s := rfl
@[simp] theorem exec_veins (o : R2) (s : State) : exec (.veins o) s = execVeins o s := rfl
@[simp] theorem exec_mux (v : Bool) (o : R2) (s : State) : exec (.mux v o) s = execMux v o s := rfl
@[simp] theorem exec_sllp (v : Bool) (o : R2) (s : State) : exec (.sllp v o) s = execSllp v o s := rfl
@[simp] theorem exec_ptrdif (v : Bool) (o : R2) (s : State) : exec (.ptrdif v o) s = execPtrdif v o s := rfl
@[simp] theorem exec_blend (v : Bool) (o : R2) (s : State) : exec (.blend v o) s = execBlend v o s := rfl
@[simp] theorem exec_fdp (v : Bool) (o : R2) (s : State) : exec (.fdp v o) s = execFdp v o s := rfl
@[simp] theorem exec_sllpi (v : Bool) (o : R2I) (s : State) : exec (.sllpi v o) s = execSllpi v o s := rfl
@[simp] theorem exec_chkR3Form (v : Bool) (o : ChkR) (s : State) : exec (.chkR3Form v o) s = execChkR3Form v o s := rfl
@[simp] theorem exec_dep (v : Bool) (o : R2) (s : State) : exec (.dep v o) s = execDep v o s := rfl
@[simp] theorem exec_ext (v : Bool) (o : R2) (s : State) : exec (.ext v o) s = execExt v o s := rfl
@[simp] theorem exec_extu (v : Bool) (o : R2) (s : State) : exec (.extu v o) s = execExtu v o s := rfl
@[simp] theorem exec_ffo (v : Bool) (o : R2) (s : State) : exec (.ffo v o) s = execFfo v o s := rfl
@[simp] theorem exec_addImmediate (v : Bool) (o : RI) (s : State) : exec (.addImmediate v o) s = execAddImmediate v o s := rfl
@[simp] theorem exec_subfImmediate (v : Bool) (o : RI) (s : State) : exec (.subfImmediate v o) s = execSubfImmediate v o s := rfl
@[simp] theorem exec_mulImmediate (v : Bool) (o : RI) (s : State) : exec (.mulImmediate v o) s = execMulImmediate v o s := rfl
@[simp] theorem exec_andImmediate (v : Bool) (o : RI) (s : State) : exec (.andImmediate v o) s = execAndImmediate v o s := rfl
@[simp] theorem exec_orImmediate (v : Bool) (o : RI) (s : State) : exec (.orImmediate v o) s = execOrImmediate v o s := rfl
@[simp] theorem exec_xorImmediate (v : Bool) (o : RI) (s : State) : exec (.xorImmediate v o) s = execXorImmediate v o s := rfl
@[simp] theorem exec_muluImmediate (v : Bool) (o : RI) (s : State) : exec (.muluImmediate v o) s = execMuluImmediate v o s := rfl
@[simp] theorem exec_divImmediate (v : Bool) (o : RI) (s : State) : exec (.divImmediate v o) s = execDivImmediate v o s := rfl
@[simp] theorem exec_divuImmediate (v : Bool) (o : RI) (s : State) : exec (.divuImmediate v o) s = execDivuImmediate v o s := rfl
@[simp] theorem exec_divsuImmediate (v : Bool) (o : RI) (s : State) : exec (.divsuImmediate v o) s = execDivsuImmediate v o s := rfl
@[simp] theorem exec_mulfImmediate (v : Bool) (o : RI) (s : State) : exec (.mulfImmediate v o) s = execMulfImmediate v o s := rfl
@[simp] theorem exec_mulsuImmediate (v : Bool) (o : RI) (s : State) : exec (.mulsuImmediate v o) s = execMulsuImmediate v o s := rfl
@[simp] theorem exec_permImmediate (v : Bool) (o : RI) (s : State) : exec (.permImmediate v o) s = execPermImmediate v o s := rfl
@[simp] theorem exec_remImmediate (v : Bool) (o : RI) (s : State) : exec (.remImmediate v o) s = execRemImmediate v o s := rfl
@[simp] theorem exec_remuImmediate (v : Bool) (o : RI) (s : State) : exec (.remuImmediate v o) s = execRemuImmediate v o s := rfl
@[simp] theorem exec_wydndxImmediate (v : Bool) (o : RI) (s : State) : exec (.wydndxImmediate v o) s = execWydndxImmediate v o s := rfl
@[simp] theorem exec_remsuImmediate (v : Bool) (o : RI) (s : State) : exec (.remsuImmediate v o) s = execRemsuImmediate v o s := rfl
@[simp] theorem exec_divrImmediate (v : Bool) (o : RI) (s : State) : exec (.divrImmediate v o) s = execDivrImmediate v o s := rfl
@[simp] theorem exec_u21ndxImmediate (v : Bool) (o : RI) (s : State) : exec (.u21ndxImmediate v o) s = execU21ndxImmediate v o s := rfl
@[simp] theorem exec_seqImmediate (v : Bool) (o : RI) (s : State) : exec (.seqImmediate v o) s = execSeqImmediate v o s := rfl
@[simp] theorem exec_sneImmediate (v : Bool) (o : RI) (s : State) : exec (.sneImmediate v o) s = execSneImmediate v o s := rfl
@[simp] theorem exec_sltImmediate (v : Bool) (o : RI) (s : State) : exec (.sltImmediate v o) s = execSltImmediate v o s := rfl
@[simp] theorem exec_sgtImmediate (v : Bool) (o : RI) (s : State) : exec (.sgtImmediate v o) s = execSgtImmediate v o s := rfl
@[simp] theorem exec_sltuImmediate (v : Bool) (o : RI) (s : State) : exec (.sltuImmediate v o) s = execSltuImmediate v o s := rfl
@[simp] theorem exec_sgtuImmediate (v : Bool) (o : RI) (s : State) : exec (.sgtuImmediate v o) s = execSgtuImmediate v o s := rfl
@[simp] theorem exec_mystImmediate (o : RI) (s : State) : exec (.mystImmediate o) s = execMystImmediate o s := rfl
@[simp] theorem exec_sand (o : RI) (s : State) : exec (.sand o) s = execSand o s := rfl
@[simp] theorem exec_sor (o : RI) (s : State) : exec (.sor o) s = execSor o s := rfl
@[simp] theorem exec_setGroup (v : Bool) (s : State) : exec (.setGroup v) s = execSetGroup v s := rfl
@[simp] theorem exec_chkImmediate (v : Bool) (o : ChkI) (s : State) : exec (.chkImmediate v o) s = execChkImmediate v o s := rfl
@[simp] theorem exec_bytndx (v : Bool) (o : R2) (s : State) : exec (.bytndx v o) s = execBytndx v o s := rfl
@[simp] theorem exec_bytndxImmediate (v : Bool) (o : BytI) (s : State) : exec (.bytndxImmediate v o) s = execBytndxImmediate v o s := rfl
@[simp] theorem exec_csrrd (o : Csr) (s : State) : exec (.csrrd o) s = execCsrrd o s := rfl
@[simp] theorem exec_csrrw (o : Csr) (s : State) : exec (.csrrw o) s = execCsrrw o s := rfl
@[simp] theorem exec_csrrs (o : Csr) (s : State) : exec (.csrrs o) s = execCsrrs o s := rfl
@[simp] theorem exec_csrrc (o : Csr) (s : State) : exec (.csrrc o) s = execCsrrc o s := rfl
@[simp] theorem exec_llal (s : State) : exec .llal s = execLlal s := rfl
@[simp] theorem exec_llah (s : State) : exec .llah s = execLlah s := rfl
@[simp] theorem exec_lpal (s : State) : exec .lpal s = execLpal s := rfl
@[simp] theorem exec_lpah (s : State) : exec .lpah s = execLpah s := rfl
@[simp] theorem exec_setkey (s : State) : exec .setkey s = execSetkey s := rfl
@[simp] theorem exec_setto (s : State) : exec .setto s = execSetto s := rfl
@[simp] theorem exec_getto (s : State) : exec .getto s = execGetto s := rfl
@[simp] theorem exec_getzl (s : State) : exec .getzl s = execGetzl s := rfl
@[simp] theorem exec_mvseg (s : State) : exec .mvseg s = execMvseg s := rfl
@[simp] theorem exec_csave (s : State) : exec .csave s = execCsave s := rfl
@[simp] theorem exec_crestore (s : State) : exec .crestore s = execCrestore s := rfl
@[simp] theorem exec_exec (a : RSpec) (s : State) : exec (.exec a) s = execExec a s := rfl
@[simp] theorem exec_pushq (b : OSpec) (a : RSpec) (s : State) : exec (.pushq b a) s = execPushq b a s := rfl
@[simp] theorem exec_popq (a : RSpec) (t : RSpec) (s : State) : exec (.popq a t) s = execPopq a t s := rfl
@[simp] theorem exec_peekq (a : RSpec) (t : RSpec) (s : State) : exec (.peekq a t) s = execPeekq a t s := rfl
@[simp] theorem exec_statq (a : RSpec) (t : RSpec) (s : State) : exec (.statq a t) s = execStatq a t s := rfl
@[simp] theorem exec_pushqi (q : BitVec 6) (a : RSpec) (s : State) : exec (.pushqi q a) s = execPushqi q a s := rfl
@[simp] theorem exec_popqi (q : BitVec 6) (t : RSpec) (s : State) : exec (.popqi q t) s = execPopqi q t s := rfl
@[simp] theorem exec_peekqi (q : BitVec 6) (t : RSpec) (s : State) : exec (.peekqi q t) s = execPeekqi q t s := rfl
@[simp] theorem exec_statqi (q : BitVec 6) (t : RSpec) (s : State) : exec (.statqi q t) s = execStatqi q t s := rfl
@[simp] theorem exec_rex (tm : BitVec 2) (s : State) : exec (.rex tm) s = execRex tm s := rfl
@[simp] theorem exec_pfi (t : RSpec) (s : State) : exec (.pfi t) s = execPfi t s := rfl
@[simp] theorem exec_wfi (s : State) : exec .wfi s = execWfi s := rfl
@[simp] theorem exec_rte (b : OSpec) (offset : BitVec 12) (s : State) : exec (.rte b offset) s = execRte b offset s := rfl
@[simp] theorem exec_tlbrw (o : R2) (s : State) : exec (.tlbrw o) s = execTlbrw o s := rfl
@[simp] theorem exec_sync (s : State) : exec .sync s = execSync s := rfl
@[simp] theorem exec_fmov (v : Bool) (o : R1) (s : State) : exec (.fmov v o) s = execFmov v o s := rfl
@[simp] theorem exec_frsqrt (v : Bool) (o : R1) (s : State) : exec (.frsqrt v o) s = execFrsqrt v o s := rfl
@[simp] theorem exec_ftoi (v : Bool) (o : R1) (s : State) : exec (.ftoi v o) s = execFtoi v o s := rfl
@[simp] theorem exec_itof (v : Bool) (o : R1) (s : State) : exec (.itof v o) s = execItof v o s := rfl
@[simp] theorem exec_fsign (v : Bool) (o : R1) (s : State) : exec (.fsign v o) s = execFsign v o s := rfl
@[simp] theorem exec_fman (v : Bool) (o : R1) (s : State) : exec (.fman v o) s = execFman v o s := rfl
@[simp] theorem exec_fs2d (v : Bool) (o : R1) (s : State) : exec (.fs2d v o) s = execFs2d v o s := rfl
@[simp] theorem exec_fs2q (v : Bool) (o : R1) (s : State) : exec (.fs2q v o) s = execFs2q v o s := rfl
@[simp] theorem exec_fd2q (v : Bool) (o : R1) (s : State) : exec (.fd2q v o) s = execFd2q v o s := rfl
@[simp] theorem exec_fstat (v : Bool) (o : R1) (s : State) : exec (.fstat v o) s = execFstat v o s := rfl
@[simp] theorem exec_isnan (v : Bool) (o : R1) (s : State) : exec (.isnan v o) s = execIsnan v o s := rfl
@[simp] theorem exec_finite (v : Bool) (o : R1) (s : State) : exec (.finite v o) s = execFinite v o s := rfl
@[simp] theorem exec_ftx (v : Bool) (o : R1) (s : State) : exec (.ftx v o) s = execFtx v o s := rfl
@[simp] theorem exec_fcx (v : Bool) (o : R1) (s : State) : exec (.fcx v o) s = execFcx v o s := rfl
@[simp] theorem exec_fex (v : Bool) (o : R1) (s : State) : exec (.fex v o) s = execFex v o s := rfl
@[simp] theorem exec_fdx (v : Bool) (o : R1) (s : State) : exec (.fdx v o) s = execFdx v o s := rfl
@[simp] theorem exec_frm (v : Bool) (o : R1) (s : State) : exec (.frm v o) s = execFrm v o s := rfl
@[simp] theorem exec_trunc (v : Bool) (o : R1) (s : State) : exec (.trunc v o) s = execTrunc v o s := rfl
@[simp] theorem exec_fsync (v : Bool) (o : R1) (s : State) : exec (.fsync v o) s = execFsync v o s := rfl
@[simp] theorem exec_fres (v : Bool) (o : R1) (s : State) : exec (.fres v o) s = execFres v o s := rfl
@[simp] theorem exec_fsigmoid (v : Bool) (o : R1) (s : State) : exec (.fsigmoid v o) s = execFsigmoid v o s := rfl
@[simp] theorem exec_fd2s (v : Bool) (o : R1) (s : State) : exec (.fd2s v o) s = execFd2s v o s := rfl
@[simp] theorem exec_fq2s (v : Bool) (o : R1) (s : State) : exec (.fq2s v o) s = execFq2s v o s := rfl
@[simp] theorem exec_fq2d (v : Bool) (o : R1) (s : State) : exec (.fq2d v o) s = execFq2d v o s := rfl
@[simp] theorem exec_fclass (v : Bool) (o : R1) (s : State) : exec (.fclass v o) s = execFclass v o s := rfl
@[simp] theorem exec_unord (v : Bool) (o : R1) (s : State) : exec (.unord v o) s = execUnord v o s := rfl
@[simp] theorem exec_fsqrt (v : Bool) (rm : BitVec 3) (o : R1) (s : State) : exec (.fsqrt v rm o) s = execFsqrt v rm o s := rfl
@[simp] theorem exec_fabs (v : Bool) (o : R1) (s : State) : exec (.fabs v o) s = execFabs v o s := rfl
@[simp] theorem exec_fnabs (v : Bool) (o : R1) (s : State) : exec (.fnabs v o) s = execFnabs v o s := rfl
@[simp] theorem exec_fneg (v : Bool) (o : R1) (s : State) : exec (.fneg v o) s = execFneg v o s := rfl
@[simp] theorem exec_scaleb (v : Bool) (o : R2) (s : State) : exec (.scaleb v o) s = execScaleb v o s := rfl
@[simp] theorem exec_fmin (v : Bool) (o : R2) (s : State) : exec (.fmin v o) s = execFmin v o s := rfl
@[simp] theorem exec_fmax (v : Bool) (o : R2) (s : State) : exec (.fmax v o) s = execFmax v o s := rfl
@[simp] theorem exec_fadd (v : Bool) (o : R2) (s : State) : exec (.fadd v o) s = execFadd v o s := rfl
@[simp] theorem exec_fsub (v : Bool) (o : R2) (s : State) : exec (.fsub v o) s = execFsub v o s := rfl
@[simp] theorem exec_fmul (v : Bool) (o : R2) (s : State) : exec (.fmul v o) s = execFmul v o s := rfl
@[simp] theorem exec_fdiv (v : Bool) (o : R2) (s : State) : exec (.fdiv v o) s = execFdiv v o s := rfl
@[simp] theorem exec_frem (v : Bool) (o : R2) (s : State) : exec (.frem v o) s = execFrem v o s := rfl
@[simp] theorem exec_fnxt (v : Bool) (o : R2) (s : State) : exec (.fnxt v o) s = execFnxt v o s := rfl
@[simp] theorem exec_fcmp (v : Bool) (o : R2) (s : State) : exec (.fcmp v o) s = execFcmp v o s := rfl
@[simp] theorem exec_fseq (v : Bool) (o : R2) (s : State) : exec (.fseq v o) s = execFseq v o s := rfl
@[simp] theorem exec_fslt (v : Bool) (o : R2) (s : State) : exec (.fslt v o) s = execFslt v o s := rfl
@[simp] theorem exec_fsle (v : Bool) (o : R2) (s : State) : exec (.fsle v o) s = execFsle v o s := rfl
@[simp] theorem exec_fsne (v : Bool) (o : R2) (s : State) : exec (.fsne v o) s = execFsne v o s := rfl
@[simp] theorem exec_fcmpb (v : Bool) (o : R2) (s : State) : exec (.fcmpb v o) s = execFcmpb v o s := rfl
@[simp] theorem exec_fsetm (v : Bool) (o : R2) (s : State) : exec (.fsetm v o) s = execFsetm v o s := rfl
@[simp] theorem exec_cpysgn (v : Bool) (o : R2) (s : State) : exec (.cpysgn v o) s = execCpysgn v o s := rfl
@[simp] theorem exec_sgninv (v : Bool) (o : R2) (s : State) : exec (.sgninv v o) s = execSgninv v o s := rfl
@[simp] theorem exec_sgnand (v : Bool) (o : R2) (s : State) : exec (.sgnand v o) s = execSgnand v o s := rfl
@[simp] theorem exec_sgnor (v : Bool) (o : R2) (s : State) : exec (.sgnor v o) s = execSgnor v o s := rfl
@[simp] theorem exec_sgnxor (v : Bool) (o : R2) (s : State) : exec (.sgnxor v o) s = execSgnxor v o s := rfl
@[simp] theorem exec_sgnxnor (v : Bool) (o : R2) (s : State) : exec (.sgnxnor v o) s = execSgnxnor v o s := rfl
@[simp] theorem exec_fclassDyadic (v : Bool) (o : R2) (s : State) : exec (.fclassDyadic v o) s = execFclassDyadic v o s := rfl
@[simp] theorem exec_fma (v : Bool) (o : R2) (s : State) : exec (.fma v o) s = execFma v o s := rfl
@[simp] theorem exec_fms (v : Bool) (o : R2) (s : State) : exec (.fms v o) s = execFms v o s := rfl
@[simp] theorem exec_fnma (v : Bool) (o : R2) (s : State) : exec (.fnma v o) s = execFnma v o s := rfl
@[simp] theorem exec_fnms (v : Bool) (o : R2) (s : State) : exec (.fnms v o) s = execFnms v o s := rfl
@[simp] theorem exec_f4Group (v : Bool) (s : State) : exec (.f4Group v) s = execF4Group v s := rfl
@[simp] theorem exec_dfabs (v : Bool) (o : R1) (s : State) : exec (.dfabs v o) s = execDfabs v o s := rfl
@[simp] theorem exec_dfnabs (v : Bool) (o : R1) (s : State) : exec (.dfnabs v o) s = execDfnabs v o s := rfl
@[simp] theorem exec_dfneg (v : Bool) (o : R1) (s : State) : exec (.dfneg v o) s = execDfneg v o s := rfl
@[simp] theorem exec_dfsqrt (v : Bool) (rm : BitVec 3) (o : R1) (s : State) : exec (.dfsqrt v rm o) s = execDfsqrt v rm o s := rfl
@[simp] theorem exec_pabs (v : Bool) (o : R1) (s : State) : exec (.pabs v o) s = execPabs v o s := rfl
@[simp] theorem exec_pnabs (v : Bool) (o : R1) (s : State) : exec (.pnabs v o) s = execPnabs v o s := rfl
@[simp] theorem exec_pneg (v : Bool) (o : R1) (s : State) : exec (.pneg v o) s = execPneg v o s := rfl
@[simp] theorem exec_psqrt (v : Bool) (rm : BitVec 3) (o : R1) (s : State) : exec (.psqrt v rm o) s = execPsqrt v rm o s := rfl
@[simp] theorem exec_dfmin (v : Bool) (o : R2) (s : State) : exec (.dfmin v o) s = execDfmin v o s := rfl
@[simp] theorem exec_dfmax (v : Bool) (o : R2) (s : State) : exec (.dfmax v o) s = execDfmax v o s := rfl
@[simp] theorem exec_dfadd (v : Bool) (o : R2) (s : State) : exec (.dfadd v o) s = execDfadd v o s := rfl
@[simp] theorem exec_dfsub (v : Bool) (o : R2) (s : State) : exec (.dfsub v o) s = execDfsub v o s := rfl
@[simp] theorem exec_dfmul (v : Bool) (o : R2) (s : State) : exec (.dfmul v o) s = execDfmul v o s := rfl
@[simp] theorem exec_dfdiv (v : Bool) (o : R2) (s : State) : exec (.dfdiv v o) s = execDfdiv v o s := rfl
@[simp] theorem exec_dfrem (v : Bool) (o : R2) (s : State) : exec (.dfrem v o) s = execDfrem v o s := rfl
@[simp] theorem exec_dfnxt (v : Bool) (o : R2) (s : State) : exec (.dfnxt v o) s = execDfnxt v o s := rfl
@[simp] theorem exec_dfcmp (v : Bool) (o : R2) (s : State) : exec (.dfcmp v o) s = execDfcmp v o s := rfl
@[simp] theorem exec_dfseq (v : Bool) (o : R2) (s : State) : exec (.dfseq v o) s = execDfseq v o s := rfl
@[simp] theorem exec_dfslt (v : Bool) (o : R2) (s : State) : exec (.dfslt v o) s = execDfslt v o s := rfl
@[simp] theorem exec_dfsle (v : Bool) (o : R2) (s : State) : exec (.dfsle v o) s = execDfsle v o s := rfl
@[simp] theorem exec_dfsne (v : Bool) (o : R2) (s : State) : exec (.dfsne v o) s = execDfsne v o s := rfl
@[simp] theorem exec_dfcmpb (v : Bool) (o : R2) (s : State) : exec (.dfcmpb v o) s = execDfcmpb v o s := rfl
@[simp] theorem exec_dfsetm (v : Bool) (o : R2) (s : State) : exec (.dfsetm v o) s = execDfsetm v o s := rfl
@[simp] theorem exec_padd (v : Bool) (o : R2) (s : State) : exec (.padd v o) s = execPadd v o s := rfl
@[simp] theorem exec_psub (v : Bool) (o : R2) (s : State) : exec (.psub v o) s = execPsub v o s := rfl
@[simp] theorem exec_pmul (v : Bool) (o : R2) (s : State) : exec (.pmul v o) s = execPmul v o s := rfl
@[simp] theorem exec_pdiv (v : Bool) (o : R2) (s : State) : exec (.pdiv v o) s = execPdiv v o s := rfl
@[simp] theorem exec_psle (v : Bool) (o : R2) (s : State) : exec (.psle v o) s = execPsle v o s := rfl
@[simp] theorem exec_df3Group (v : Bool) (s : State) : exec (.df3Group v) s = execDf3Group v s := rfl
@[simp] theorem exec_df4Group (v : Bool) (s : State) : exec (.df4Group v) s = execDf4Group v s := rfl
@[simp] theorem exec_pst3Group (v : Bool) (s : State) : exec (.pst3Group v) s = execPst3Group v s := rfl
@[simp] theorem exec_pst4Group (v : Bool) (s : State) : exec (.pst4Group v) s = execPst4Group v s := rfl
@[simp] theorem exec_link (o : RI) (s : State) : exec (.link o) s = execLink o s := rfl
@[simp] theorem exec_unlink (o : Two) (s : State) : exec (.unlink o) s = execUnlink o s := rfl
@[simp] theorem exec_nop (v : Bool) (s : State) : exec (.nop v) s = execNop v s := rfl
@[simp] theorem exec_mand (o : MaskRRR) (s : State) : exec (.mand o) s = execMand o s := rfl
@[simp] theorem exec_morMask (o : MaskRRR) (s : State) : exec (.morMask o) s = execMorMask o s := rfl
@[simp] theorem exec_mxorMask (o : MaskRRR) (s : State) : exec (.mxorMask o) s = execMxorMask o s := rfl
@[simp] theorem exec_madd (o : MaskRRR) (s : State) : exec (.madd o) s = execMadd o s := rfl
@[simp] theorem exec_msub (o : MaskRRR) (s : State) : exec (.msub o) s = execMsub o s := rfl
@[simp] theorem exec_mnand (o : MaskRRR) (s : State) : exec (.mnand o) s = execMnand o s := rfl
@[simp] theorem exec_mnor (o : MaskRRR) (s : State) : exec (.mnor o) s = execMnor o s := rfl
@[simp] theorem exec_mxnor (o : MaskRRR) (s : State) : exec (.mxnor o) s = execMxnor o s := rfl
@[simp] theorem exec_msll (o : MaskShift) (s : State) : exec (.msll o) s = execMsll o s := rfl
@[simp] theorem exec_msrl (o : MaskShift) (s : State) : exec (.msrl o) s = execMsrl o s := rfl
@[simp] theorem exec_mfill (o : ToMask) (s : State) : exec (.mfill o) s = execMfill o s := rfl
@[simp] theorem exec_mpop (o : FromMask) (s : State) : exec (.mpop o) s = execMpop o s := rfl
@[simp] theorem exec_mfirst (o : FromMask) (s : State) : exec (.mfirst o) s = execMfirst o s := rfl
@[simp] theorem exec_mlast (o : FromMask) (s : State) : exec (.mlast o) s = execMlast o s := rfl
@[simp] theorem exec_mtm (o : ToMask) (s : State) : exec (.mtm o) s = execMtm o s := rfl
@[simp] theorem exec_mfm (o : FromMask) (s : State) : exec (.mfm o) s = execMfm o s := rfl
@[simp] theorem exec_mtvl (a : RSpec) (s : State) : exec (.mtvl a) s = execMtvl a s := rfl
@[simp] theorem exec_mfvl (tt : BitVec 2) (rt : BitVec 5) (s : State) : exec (.mfvl tt rt) s = execMfvl tt rt s := rfl
@[simp] theorem exec_jal (addr : BitVec 26) (rt : BitVec 2) (s : State) : exec (.jal addr rt) s = execJal addr rt s := rfl
@[simp] theorem exec_bal (addr : BitVec 26) (rt : BitVec 2) (s : State) : exec (.bal addr rt) s = execBal addr rt s := rfl
@[simp] theorem exec_jalr (o : RI) (s : State) : exec (.jalr o) s = execJalr o s := rfl
@[simp] theorem exec_fbeq (o : Branch) (s : State) : exec (.fbeq o) s = execFbeq o s := rfl
@[simp] theorem exec_fbne (o : Branch) (s : State) : exec (.fbne o) s = execFbne o s := rfl
@[simp] theorem exec_blt (o : Branch) (s : State) : exec (.blt o) s = execBlt o s := rfl
@[simp] theorem exec_bge (o : Branch) (s : State) : exec (.bge o) s = execBge o s := rfl
@[simp] theorem exec_bltu (o : Branch) (s : State) : exec (.bltu o) s = execBltu o s := rfl
@[simp] theorem exec_bgeu (o : Branch) (s : State) : exec (.bgeu o) s = execBgeu o s := rfl
@[simp] theorem exec_bbs (o : Branch) (s : State) : exec (.bbs o) s = execBbs o s := rfl
@[simp] theorem exec_beq (o : Branch) (s : State) : exec (.beq o) s = execBeq o s := rfl
@[simp] theorem exec_bne (o : Branch) (s : State) : exec (.bne o) s = execBne o s := rfl
@[simp] theorem exec_blank43h (s : State) : exec .blank43h s = execBlank43h s := rfl
@[simp] theorem exec_blank44h (s : State) : exec .blank44h s = execBlank44h s := rfl
@[simp] theorem exec_blank45h (s : State) : exec .blank45h s = execBlank45h s := rfl
@[simp] theorem exec_blank4ch (s : State) : exec .blank4ch s = execBlank4ch s := rfl
@[simp] theorem exec_exi0 (payload : BitVec 28) (s : State) : exec (.exi0 payload) s = execExi0 payload s := rfl
@[simp] theorem exec_exi1 (payload : BitVec 28) (s : State) : exec (.exi1 payload) s = execExi1 payload s := rfl
@[simp] theorem exec_exi2 (payload : BitVec 28) (s : State) : exec (.exi2 payload) s = execExi2 payload s := rfl
@[simp] theorem exec_exi3 (payload : BitVec 28) (s : State) : exec (.exi3 payload) s = execExi3 payload s := rfl
@[simp] theorem exec_exi4 (payload : BitVec 28) (s : State) : exec (.exi4 payload) s = execExi4 payload s := rfl
@[simp] theorem exec_imod (v : Bool) (o : ImodOps) (s : State) : exec (.imod v o) s = execImod v o s := rfl
@[simp] theorem exec_brmod (o : BrmodOps) (s : State) : exec (.brmod o) s = execBrmod o s := rfl
@[simp] theorem exec_stride (v : Bool) (o : StrideOps) (s : State) : exec (.stride v o) s = execStride v o s := rfl
@[simp] theorem exec_reglist (list : BitVec 30) (s : State) : exec (.reglist list) s = execReglist list s := rfl
@[simp] theorem exec_ldb (o : LdD) (s : State) : exec (.ldb o) s = execLdb o s := rfl
@[simp] theorem exec_ldbIndexed (o : LdX) (s : State) : exec (.ldbIndexed o) s = execLdbIndexed o s := rfl
@[simp] theorem exec_ldw (o : LdD) (s : State) : exec (.ldw o) s = execLdw o s := rfl
@[simp] theorem exec_ldwIndexed (o : LdX) (s : State) : exec (.ldwIndexed o) s = execLdwIndexed o s := rfl
@[simp] theorem exec_ldt (o : LdD) (s : State) : exec (.ldt o) s = execLdt o s := rfl
@[simp] theorem exec_ldtIndexed (o : LdX) (s : State) : exec (.ldtIndexed o) s = execLdtIndexed o s := rfl
@[simp] theorem exec_ldo (o : LdD) (s : State) : exec (.ldo o) s = execLdo o s := rfl
@[simp] theorem exec_ldoIndexed (o : LdX) (s : State) : exec (.ldoIndexed o) s = execLdoIndexed o s := rfl
@[simp] theorem exec_ldbz (o : LdD) (s : State) : exec (.ldbz o) s = execLdbz o s := rfl
@[simp] theorem exec_ldbzIndexed (o : LdX) (s : State) : exec (.ldbzIndexed o) s = execLdbzIndexed o s := rfl
@[simp] theorem exec_ldwz (o : LdD) (s : State) : exec (.ldwz o) s = execLdwz o s := rfl
@[simp] theorem exec_ldwzIndexed (o : LdX) (s : State) : exec (.ldwzIndexed o) s = execLdwzIndexed o s := rfl
@[simp] theorem exec_ldtz (o : LdD) (s : State) : exec (.ldtz o) s = execLdtz o s := rfl
@[simp] theorem exec_ldtzIndexed (o : LdX) (s : State) : exec (.ldtzIndexed o) s = execLdtzIndexed o s := rfl
@[simp] theorem exec_ldoAt64h (o : LdD) (s : State) : exec (.ldoAt64h o) s = execLdoAt64h o s := rfl
@[simp] theorem exec_ldoIndexedAt65h (o : LdX) (s : State) : exec (.ldoIndexedAt65h o) s = execLdoIndexedAt65h o s := rfl
@[simp] theorem exec_ldptrAt60h (o : LdD) (s : State) : exec (.ldptrAt60h o) s = execLdptrAt60h o s := rfl
@[simp] theorem exec_ldptrAt61h (o : LdX) (s : State) : exec (.ldptrAt61h o) s = execLdptrAt61h o s := rfl
@[simp] theorem exec_ldptrAt64h (o : LdD) (s : State) : exec (.ldptrAt64h o) s = execLdptrAt64h o s := rfl
@[simp] theorem exec_ldptrAt65h (o : LdX) (s : State) : exec (.ldptrAt65h o) s = execLdptrAt65h o s := rfl
@[simp] theorem exec_ldmAt60h (o : LdD) (s : State) : exec (.ldmAt60h o) s = execLdmAt60h o s := rfl
@[simp] theorem exec_ldmAt61h (o : LdX) (s : State) : exec (.ldmAt61h o) s = execLdmAt61h o s := rfl
@[simp] theorem exec_loadFunc4Is4At60h (o : LdD) (s : State) : exec (.loadFunc4Is4At60h o) s = execLoadFunc4Is4At60h o s := rfl
@[simp] theorem exec_loadFunc4Is5At60h (o : LdD) (s : State) : exec (.loadFunc4Is5At60h o) s = execLoadFunc4Is5At60h o s := rfl
@[simp] theorem exec_loadFunc4Is4At61h (o : LdX) (s : State) : exec (.loadFunc4Is4At61h o) s = execLoadFunc4Is4At61h o s := rfl
@[simp] theorem exec_loadFunc4Is5At61h (o : LdX) (s : State) : exec (.loadFunc4Is5At61h o) s = execLoadFunc4Is5At61h o s := rfl
@[simp] theorem exec_loadFunc4Is4At64h (o : LdD) (s : State) : exec (.loadFunc4Is4At64h o) s = execLoadFunc4Is4At64h o s := rfl
@[simp] theorem exec_loadFunc4Is5At64h (o : LdD) (s : State) : exec (.loadFunc4Is5At64h o) s = execLoadFunc4Is5At64h o s := rfl
@[simp] theorem exec_loadFunc4Is4At65h (o : LdX) (s : State) : exec (.loadFunc4Is4At65h o) s = execLoadFunc4Is4At65h o s := rfl
@[simp] theorem exec_loadFunc4Is5At65h (o : LdX) (s : State) : exec (.loadFunc4Is5At65h o) s = execLoadFunc4Is5At65h o s := rfl
@[simp] theorem exec_cache (o : CacheOps) (s : State) : exec (.cache o) s = execCache o s := rfl
@[simp] theorem exec_stb (o : StD) (s : State) : exec (.stb o) s = execStb o s := rfl
@[simp] theorem exec_stbIndexed (o : StX) (s : State) : exec (.stbIndexed o) s = execStbIndexed o s := rfl
@[simp] theorem exec_stw (o : StD) (s : State) : exec (.stw o) s = execStw o s := rfl
@[simp] theorem exec_stwIndexed (o : StX) (s : State) : exec (.stwIndexed o) s = execStwIndexed o s := rfl
@[simp] theorem exec_stt (o : StD) (s : State) : exec (.stt o) s = execStt o s := rfl
@[simp] theorem exec_sttIndexed (o : StX) (s : State) : exec (.sttIndexed o) s = execSttIndexed o s := rfl
@[simp] theorem exec_sto (o : StD) (s : State) : exec (.sto o) s = execSto o s := rfl
@[simp] theorem exec_stoIndexed (o : StX) (s : State) : exec (.stoIndexed o) s = execStoIndexed o s := rfl
@[simp] theorem exec_stptr (o : StD) (s : State) : exec (.stptr o) s = execStptr o s := rfl
@[simp] theorem exec_stptrIndexed (o : StX) (s : State) : exec (.stptrIndexed o) s = execStptrIndexed o s := rfl
@[simp] theorem exec_stm (o : StD) (s : State) : exec (.stm o) s = execStm o s := rfl
@[simp] theorem exec_stmIndexed (o : StX) (s : State) : exec (.stmIndexed o) s = execStmIndexed o s := rfl
@[simp] theorem exec_pop (o : R2) (s : State) : exec (.pop o) s = execPop o s := rfl
@[simp] theorem exec_popPair (o : R2) (s : State) : exec (.popPair o) s = execPopPair o s := rfl
@[simp] theorem exec_push (o : R2) (s : State) : exec (.push o) s = execPush o s := rfl
@[simp] theorem exec_pushPair (o : R2) (s : State) : exec (.pushPair o) s = execPushPair o s := rfl
@[simp] theorem exec_ldsx (f4 : BitVec 4) (o : LdD) (s : State) : exec (.ldsx f4 o) s = execLdsx f4 o s := rfl
@[simp] theorem exec_ldxvx (f4 : BitVec 4) (o : LdD) (s : State) : exec (.ldxvx f4 o) s = execLdxvx f4 o s := rfl
@[simp] theorem exec_cvldsx (f4 : BitVec 4) (o : LdD) (s : State) : exec (.cvldsx f4 o) s = execCvldsx f4 o s := rfl
@[simp] theorem exec_cvldxvx (f4 : BitVec 4) (o : LdD) (s : State) : exec (.cvldxvx f4 o) s = execCvldxvx f4 o s := rfl
@[simp] theorem exec_stsx (f4 : BitVec 4) (o : StD) (s : State) : exec (.stsx f4 o) s = execStsx f4 o s := rfl
@[simp] theorem exec_stxvx (f4 : BitVec 4) (o : StD) (s : State) : exec (.stxvx f4 o) s = execStxvx f4 o s := rfl
@[simp] theorem exec_cvstsx (f4 : BitVec 4) (o : StD) (s : State) : exec (.cvstsx f4 o) s = execCvstsx f4 o s := rfl
@[simp] theorem exec_cvstxvx (f4 : BitVec 4) (o : StD) (s : State) : exec (.cvstxvx f4 o) s = execCvstxvx f4 o s := rfl
@[simp] theorem exec_cRti (s : State) : exec .cRti s = execCRti s := rfl
@[simp] theorem exec_cPfi (s : State) : exec .cPfi s = execCPfi s := rfl
@[simp] theorem exec_cWfi (s : State) : exec .cWfi s = execCWfi s := rfl
@[simp] theorem exec_cSync (s : State) : exec .cSync s = execCSync s := rfl
@[simp] theorem exec_cBrk (cause : BitVec 7) (s : State) : exec (.cBrk cause) s = execCBrk cause s := rfl
@[simp] theorem exec_cLdoFp (k : BitVec 7) (r : BitVec 5) (s : State) : exec (.cLdoFp k r) s = execCLdoFp k r s := rfl
@[simp] theorem exec_cLdoSp (k : BitVec 7) (r : BitVec 5) (s : State) : exec (.cLdoSp k r) s = execCLdoSp k r s := rfl
@[simp] theorem exec_cStoFp (k : BitVec 7) (r : BitVec 5) (s : State) : exec (.cStoFp k r) s = execCStoFp k r s := rfl
@[simp] theorem exec_cStoSp (k : BitVec 7) (r : BitVec 5) (s : State) : exec (.cStoSp k r) s = execCStoSp k r s := rfl
@[simp] theorem exec_cJmp (ra : BitVec 5) (rt : BitVec 2) (s : State) : exec (.cJmp ra rt) s = execCJmp ra rt s := rfl
@[simp] theorem exec_cMov (ra : BitVec 5) (rt : BitVec 5) (s : State) : exec (.cMov ra rt) s = execCMov ra rt s := rfl
@[simp] theorem exec_cAdd (ra : BitVec 5) (rt : BitVec 5) (s : State) : exec (.cAdd ra rt) s = execCAdd ra rt s := rfl
@[simp] theorem exec_cAnd (ra : BitVec 5) (rt : BitVec 5) (s : State) : exec (.cAnd ra rt) s = execCAnd ra rt s := rfl
@[simp] theorem exec_cAddi (k : BitVec 7) (r : BitVec 5) (s : State) : exec (.cAddi k r) s = execCAddi k r s := rfl
@[simp] theorem exec_cAndi (k : BitVec 7) (r : BitVec 5) (s : State) : exec (.cAndi k r) s = execCAndi k r s := rfl
@[simp] theorem exec_cOri (k : BitVec 7) (r : BitVec 5) (s : State) : exec (.cOri k r) s = execCOri k r s := rfl
@[simp] theorem exec_cBeqz (k : BitVec 7) (r : BitVec 5) (s : State) : exec (.cBeqz k r) s = execCBeqz k r s := rfl
@[simp] theorem exec_cBnez (k : BitVec 7) (r : BitVec 5) (s : State) : exec (.cBnez k r) s = execCBnez k r s := rfl
@[simp] theorem exec_cBal (k : BitVec 10) (rt : BitVec 2) (s : State) : exec (.cBal k rt) s = execCBal k rt s := rfl
@[simp] theorem exec_cLdi (k : BitVec 7) (r : BitVec 5) (s : State) : exec (.cLdi k r) s = execCLdi k r s := rfl
@[simp] theorem exec_cSlli (k : BitVec 5) (rt : BitVec 5) (s : State) : exec (.cSlli k rt) s = execCSlli k rt s := rfl
@[simp] theorem exec_cSrli (k : BitVec 5) (rt : BitVec 5) (s : State) : exec (.cSrli k rt) s = execCSrli k rt s := rfl
@[simp] theorem exec_cSrai (k : BitVec 5) (rt : BitVec 5) (s : State) : exec (.cSrai k rt) s = execCSrai k rt s := rfl
@[simp] theorem exec_cSub (rb : BitVec 3) (rt : BitVec 3) (s : State) : exec (.cSub rb rt) s = execCSub rb rt s := rfl
@[simp] theorem exec_cOr (rb : BitVec 3) (rt : BitVec 3) (s : State) : exec (.cOr rb rt) s = execCOr rb rt s := rfl
@[simp] theorem exec_cXor (rb : BitVec 3) (rt : BitVec 3) (s : State) : exec (.cXor rb rt) s = execCXor rb rt s := rfl
@[simp] theorem exec_cNand (rb : BitVec 3) (rt : BitVec 3) (s : State) : exec (.cNand rb rt) s = execCNand rb rt s := rfl
@[simp] theorem exec_cNor (rb : BitVec 3) (rt : BitVec 3) (s : State) : exec (.cNor rb rt) s = execCNor rb rt s := rfl
@[simp] theorem exec_c7chUnlisted (s : State) : exec .c7chUnlisted s = execC7chUnlisted s := rfl
@[simp] theorem exec_c7dhReserved (s : State) : exec .c7dhReserved s = execC7dhReserved s := rfl
@[simp] theorem exec_cLdmSp (list : BitVec 11) (e : Bool) (s : State) : exec (.cLdmSp list e) s = execCLdmSp list e s := rfl
@[simp] theorem exec_c7fhNoRow (s : State) : exec .c7fhNoRow s = execC7fhNoRow s := rfl
@[simp] theorem exec_scalebDecimal (v : Bool) (o : R2) (s : State) : exec (.scalebDecimal v o) s = execScalebDecimal v o s := rfl
@[simp] theorem exec_cpysgnDecimal (v : Bool) (o : R2) (s : State) : exec (.cpysgnDecimal v o) s = execCpysgnDecimal v o s := rfl
@[simp] theorem exec_sgninvDecimal (v : Bool) (o : R2) (s : State) : exec (.sgninvDecimal v o) s = execSgninvDecimal v o s := rfl
@[simp] theorem exec_sgnandDecimal (v : Bool) (o : R2) (s : State) : exec (.sgnandDecimal v o) s = execSgnandDecimal v o s := rfl
@[simp] theorem exec_sgnorDecimal (v : Bool) (o : R2) (s : State) : exec (.sgnorDecimal v o) s = execSgnorDecimal v o s := rfl
@[simp] theorem exec_sgnxorDecimal (v : Bool) (o : R2) (s : State) : exec (.sgnxorDecimal v o) s = execSgnxorDecimal v o s := rfl
@[simp] theorem exec_sgnxnorDecimal (v : Bool) (o : R2) (s : State) : exec (.sgnxnorDecimal v o) s = execSgnxnorDecimal v o s := rfl
@[simp] theorem exec_fclassDecimal (v : Bool) (o : R2) (s : State) : exec (.fclassDecimal v o) s = execFclassDecimal v o s := rfl
@[simp] theorem exec_loadFunc4Is13At64h (o : LdD) (s : State) : exec (.loadFunc4Is13At64h o) s = execLoadFunc4Is13At64h o s := rfl
@[simp] theorem exec_loadFunc4Is13At65h (o : LdX) (s : State) : exec (.loadFunc4Is13At65h o) s = execLoadFunc4Is13At65h o s := rfl
@[simp] theorem exec_c74hReserved (s : State) : exec .c74hReserved s = execC74hReserved s := rfl

/-- `exec` is `execOf` at the default parameters. -/
theorem exec_eq (i : Instr) (s : State) : exec i s = execOf i s := by
  cases i <;> rfl

/-- `step` is `stepOf` at the default parameters. -/
theorem step_eq (s : State) : step s = stepOf s := by
  have h : exec = execOf (P := Config.default) := funext fun i => funext (exec_eq i)
  rw [step, stepOf, h]

end Sys2Proof.Machine
end

