-- ==== Sys2Proof/Laws/Memory.lean ====
section
/-! SUPPORT. Sparse maps and memory: reads after writes, the frame of a write, and that every operation
keeps the canonical form, in which equal contents are equal lists. -/

namespace Sys2Proof.Machine

/-! ### Sparse maps -/

theorem sparseGet_below {w : Nat} (l : List (Nat × BitVec w)) (lo lim a : Nat) (h : sparseWf lo lim l = true)
    (ha : a < lo) : sparseGet l a = 0#w := by
  induction l generalizing lo with
  | nil => rfl
  | cons p r ih =>
    obtain ⟨k, u⟩ := p
    simp only [sparseWf, Bool.and_eq_true, decide_eq_true_eq] at h
    simp only [sparseGet]
    rw [if_neg (by omega)]
    exact ih (k + 1) h.2 (by omega)

theorem sparseGet_above {w : Nat} (l : List (Nat × BitVec w)) (lo lim a : Nat) (h : sparseWf lo lim l = true)
    (ha : lim ≤ a) : sparseGet l a = 0#w := by
  induction l generalizing lo with
  | nil => rfl
  | cons p r ih =>
    obtain ⟨k, u⟩ := p
    simp only [sparseWf, Bool.and_eq_true, decide_eq_true_eq] at h
    simp only [sparseGet]
    rw [if_neg (by omega)]
    exact ih (k + 1) h.2

theorem sparseGet_set_other {w : Nat} (l : List (Nat × BitVec w)) (a b : Nat) (v : BitVec w) (h : b ≠ a) :
    sparseGet (sparseSet l a v) b = sparseGet l b := by
  induction l with
  | nil =>
    simp only [sparseSet]
    split
    · rfl
    · simp only [sparseGet, if_neg (Ne.symm h)]
  | cons p r ih =>
    obtain ⟨k, u⟩ := p
    simp only [sparseSet]
    split
    · split
      · rfl
      · simp only [sparseGet, if_neg (Ne.symm h)]
    · split
      · rename_i hk
        split <;> simp only [sparseGet, ← hk, if_neg (Ne.symm h)]
      · simp only [sparseGet, ih]

theorem sparseGet_set_same {w : Nat} (l : List (Nat × BitVec w)) (lo lim a : Nat) (v : BitVec w)
    (h : sparseWf lo lim l = true) : sparseGet (sparseSet l a v) a = v := by
  induction l generalizing lo with
  | nil =>
    simp only [sparseSet]
    split
    · rename_i hv
      rw [hv]
      rfl
    · simp only [sparseGet, if_pos]
  | cons p r ih =>
    obtain ⟨k, u⟩ := p
    simp only [sparseWf, Bool.and_eq_true, decide_eq_true_eq] at h
    simp only [sparseSet]
    split
    · split
      · rename_i hak hv
        simp only [sparseGet]
        rw [if_neg (by omega), hv]
        exact sparseGet_below r (k + 1) lim a h.2 (by omega)
      · simp only [sparseGet, if_pos]
    · split
      · split
        · rename_i hv
          rw [hv]
          exact sparseGet_below r (k + 1) lim a h.2 (by omega)
        · simp only [sparseGet, if_pos]
      · simp only [sparseGet]
        rw [if_neg (by omega)]
        exact ih (k + 1) h.2

theorem sparseGet_set {w : Nat} (l : List (Nat × BitVec w)) (lo lim a b : Nat) (v : BitVec w)
    (h : sparseWf lo lim l = true) : sparseGet (sparseSet l a v) b = if b = a then v else sparseGet l b := by
  split
  · rename_i hb
    rw [hb]
    exact sparseGet_set_same l lo lim a v h
  · rename_i hb
    exact sparseGet_set_other l a b v hb

theorem sparseWf_mono {w : Nat} (l : List (Nat × BitVec w)) (lo lo' lim : Nat) (hl : lo' ≤ lo)
    (h : sparseWf lo lim l = true) : sparseWf lo' lim l = true := by
  cases l with
  | nil => rfl
  | cons p r =>
    obtain ⟨k, u⟩ := p
    simp only [sparseWf, Bool.and_eq_true, decide_eq_true_eq] at h ⊢
    exact ⟨⟨⟨by omega, h.1.1.2⟩, h.1.2⟩, h.2⟩

/-- Writing keeps the canonical form. -/
theorem sparseSet_wf {w : Nat} (l : List (Nat × BitVec w)) (lo lim a : Nat) (v : BitVec w)
    (h : sparseWf lo lim l = true) (hlo : lo ≤ a) (hlim : a < lim) : sparseWf lo lim (sparseSet l a v) = true := by
  induction l generalizing lo with
  | nil =>
    simp only [sparseSet]
    split
    · rfl
    · simp_all [sparseWf]
  | cons p r ih =>
    obtain ⟨k, u⟩ := p
    have h0 := h
    simp only [sparseWf, Bool.and_eq_true, decide_eq_true_eq] at h
    simp only [sparseSet]
    split
    · split
      · exact h0
      · rename_i hv
        simp only [sparseWf, Bool.and_eq_true, decide_eq_true_eq]
        exact ⟨⟨⟨hlo, hlim⟩, by simpa using hv⟩, ⟨⟨by omega, h.1.1.2⟩, h.1.2⟩, h.2⟩
    · split
      · rename_i hk
        subst hk
        split
        · exact sparseWf_mono r (a + 1) lo lim (by omega) h.2
        · rename_i hv
          simp only [sparseWf, Bool.and_eq_true, decide_eq_true_eq]
          exact ⟨⟨⟨hlo, hlim⟩, by simpa using hv⟩, h.2⟩
      · simp only [sparseWf, Bool.and_eq_true, decide_eq_true_eq]
        exact ⟨h.1, ih (k + 1) h.2 (by omega)⟩

/-- In canonical form, maps with equal contents are equal lists. -/
theorem sparse_ext {w : Nat} (l m : List (Nat × BitVec w)) (lo lim : Nat) (hl : sparseWf lo lim l = true)
    (hm : sparseWf lo lim m = true) (h : ∀ a, sparseGet l a = sparseGet m a) : l = m := by
  induction l generalizing lo m with
  | nil =>
    cases m with
    | nil => rfl
    | cons q r =>
      obtain ⟨k, u⟩ := q
      have hk := h k
      simp only [sparseGet, if_pos] at hk
      simp only [sparseWf, Bool.and_eq_true, ← hk] at hm
      simp at hm
  | cons p r ih =>
    obtain ⟨k, u⟩ := p
    cases m with
    | nil =>
      have hk := h k
      simp only [sparseGet, if_pos] at hk
      simp only [sparseWf, Bool.and_eq_true, hk] at hl
      simp at hl
    | cons q t =>
      obtain ⟨j, z⟩ := q
      have hl' := hl
      have hm' := hm
      simp only [sparseWf, Bool.and_eq_true, decide_eq_true_eq] at hl hm
      have e1 := h k
      have e2 := h j
      simp only [sparseGet, if_pos] at e1 e2
      by_cases hjk : j = k
      · subst hjk
        simp only [if_pos] at e1
        subst e1
        rw [ih t (j + 1) hl.2 hm.2]
        intro a
        have ha := h a
        simp only [sparseGet] at ha
        by_cases haj : j = a
        · subst haj
          rw [sparseGet_below r (j + 1) lim j hl.2 (by omega), sparseGet_below t (j + 1) lim j hm.2 (by omega)]
        · simpa only [if_neg haj] using ha
      · exfalso
        rcases Nat.lt_or_gt_of_ne hjk with hlt | hgt
        · rw [if_neg (by omega), sparseGet_below r (k + 1) lim j hl.2 (by omega)] at e2
          rw [← e2] at hm
          simp at hm
        · rw [if_neg (by omega), sparseGet_below t (j + 1) lim k hm.2 (by omega)] at e1
          rw [e1] at hl
          simp at hl

/-! ### Bytes -/

theorem byteAt_setByte (m : List Host.Cell) (a b : Word) (u : Byte) (h : Memory.wf m = true) :
    byteAt (setByte m a u) b = if b = a then u else byteAt m b := by
  unfold byteAt setByte
  rw [sparseGet_set m 0 (2 ^ 64) _ _ _ h]
  simp only [BitVec.toNat_inj]

theorem byteAt_setByte_other (m : List Host.Cell) (a b : Word) (u : Byte) (h : b ≠ a) :
    byteAt (setByte m a u) b = byteAt m b :=
  sparseGet_set_other m a.toNat b.toNat u fun e => h (BitVec.eq_of_toNat_eq e)

theorem setByte_wf (m : List Host.Cell) (a : Word) (u : Byte) (h : Memory.wf m = true) :
    Memory.wf (setByte m a u) = true :=
  sparseSet_wf m 0 (2 ^ 64) a.toNat u h (Nat.zero_le _) a.isLt

theorem writeLanes_wf (m : List Host.Cell) (a : Word) (n : Nat) (v : Word) (k : Nat) (h : Memory.wf m = true) :
    Memory.wf (writeLanes m a n v k) = true := by
  induction k with
  | zero => exact h
  | succ j ih => exact setByte_wf _ _ _ ih

theorem memWrite_wf (m : List Host.Cell) (a : Word) (n : Nat) (v : Word) (h : Memory.wf m = true) :
    Memory.wf (memWrite m a n v) = true :=
  writeLanes_wf m a n v n h

theorem lane_little (n k : Nat) : lane n k = k := rfl

theorem byteAt_writeLanes_other (m : List Host.Cell) (a b : Word) (n : Nat) (v : Word) (k : Nat)
    (h : ∀ j < k, b ≠ a + BitVec.ofNat 64 j) : byteAt (writeLanes m a n v k) b = byteAt m b := by
  induction k with
  | zero => rfl
  | succ j ih =>
    simp only [writeLanes, lane_little]
    rw [byteAt_setByte_other _ _ _ _ (h j (by omega))]
    exact ih fun i hi => h i (by omega)

/-- The frame of a store: a byte outside the stored bytes reads as before. -/
theorem byteAt_memWrite_other (m : List Host.Cell) (a b : Word) (n : Nat) (v : Word)
    (h : ∀ j < n, b ≠ a + BitVec.ofNat 64 j) : byteAt (memWrite m a n v) b = byteAt m b :=
  byteAt_writeLanes_other m a b n v n h

theorem add_ofNat_inj (a : Word) (i j : Nat) (hi : i < 2 ^ 64) (hj : j < 2 ^ 64)
    (h : a + BitVec.ofNat 64 i = a + BitVec.ofNat 64 j) : i = j := by
  have h2 := congrArg BitVec.toNat (add_left_cancel h)
  simp only [BitVec.toNat_ofNat] at h2
  omega

theorem byteAt_writeLanes (m : List Host.Cell) (a : Word) (n : Nat) (v : Word) (k i : Nat) (hi : i < k)
    (hk : k ≤ 2 ^ 64) (h : Memory.wf m = true) :
    byteAt (writeLanes m a n v k) (a + BitVec.ofNat 64 i) = v.extractLsb' (8 * i) 8 := by
  induction k with
  | zero => omega
  | succ j ih =>
    simp only [writeLanes, lane_little]
    rw [byteAt_setByte _ _ _ _ (writeLanes_wf m a n v j h)]
    split
    · rename_i e
      rw [add_ofNat_inj a i j (by omega) (by omega) e]
    · rename_i e
      refine ih ?_ (by omega)
      have : i ≠ j := fun hij => e (by rw [hij])
      omega

/-- A stored byte reads back (20 R76). -/
theorem byteAt_memWrite (m : List Host.Cell) (a : Word) (n : Nat) (v : Word) (i : Nat) (hi : i < n)
    (hn : n ≤ 2 ^ 64) (h : Memory.wf m = true) :
    byteAt (memWrite m a n v) (a + BitVec.ofNat 64 i) = v.extractLsb' (8 * i) 8 :=
  byteAt_writeLanes m a n v n i hi hn h

/-- Bit `j` of a loaded value (20 R75). -/
theorem getLsbD_readLanes (m : List Host.Cell) (a : Word) (n k j : Nat) (hj : j < 64) :
    (readLanes m a n k).getLsbD j
      = (decide (j < 8 * k) && (byteAt m (a + BitVec.ofNat 64 (j / 8))).getLsbD (j % 8)) := by
  induction k with
  | zero => simp [readLanes]
  | succ i ih =>
    simp only [readLanes, lane_little, BitVec.getLsbD_or, ih, BitVec.getLsbD_shiftLeft, BitVec.getLsbD_setWidth]
    by_cases h1 : j < 8 * i
    · simp [h1, hj, show j < 8 * (i + 1) by omega]
    · by_cases h2 : j < 8 * (i + 1)
      · have e1 : j / 8 = i := by omega
        have e2 : j - 8 * i = j % 8 := by omega
        simp [h1, h2, hj, e1, e2, show j % 8 < 64 by omega]
      · have : 8 ≤ j - 8 * i := by omega
        simp [h1, h2, BitVec.getLsbD_of_ge _ _ this]

/-- A value stored and loaded with the same size comes back, zero-extended (20 R75, R76). -/
theorem memRead_memWrite (m : List Host.Cell) (a : Word) (n : Nat) (v : Word) (hn : n ≤ 8)
    (h : Memory.wf m = true) : memRead (memWrite m a n v) a n = (v.setWidth (8 * n)).setWidth 64 := by
  apply BitVec.eq_of_getLsbD_eq
  intro j hj
  rw [memRead, getLsbD_readLanes _ _ _ _ _ hj]
  simp only [BitVec.getLsbD_setWidth, hj, decide_true, Bool.true_and]
  by_cases h8 : j < 8 * n
  · simp only [h8, decide_true, Bool.true_and]
    rw [byteAt_memWrite m a n v (j / 8) (by omega) (by omega) h]
    rw [BitVec.getLsbD_extractLsb', show 8 * (j / 8) + j % 8 = j by omega]
    simp [show j % 8 < 8 by omega]
  · simp [h8]

/-- A load sees nothing of a store to other bytes. -/
theorem memRead_congr (m m' : List Host.Cell) (a : Word) (n : Nat)
    (h : ∀ j < n, byteAt m' (a + BitVec.ofNat 64 j) = byteAt m (a + BitVec.ofNat 64 j)) :
    memRead m' a n = memRead m a n := by
  have gen : ∀ k ≤ n, readLanes m' a n k = readLanes m a n k := by
    intro k hk
    induction k with
    | zero => rfl
    | succ j ih =>
      simp only [readLanes, lane_little]
      rw [ih (by omega), h j (by omega)]
  exact gen n (Nat.le_refl n)

end Sys2Proof.Machine
end

