-- ==== Sys2Proof/Laws/State.lean ====
section
/-! SUPPORT. Each field of the state after each update, so that no proof unfolds a record update, and
register reads after register writes. -/

namespace Sys2Proof.Machine

/-! ### Memory accesses -/

@[simp] theorem physical_eq (s : State) (a : Word) (k : Config.Access) : physical s a k = a := rfl

/-- With MEM_RANGE and TRANSLATE at their defaults every access is made. -/
@[simp] theorem accessing_eq (s : State) (x : Accesses) (r : Out) : accessing s x r = r := by
  have h : s.accessFault x = none := by
    unfold State.accessFault
    rw [List.findSome?_eq_none_iff]
    exact fun _ _ => rfl
  have h2 : (x.items.all fun p => inRange Config.default (physical s p.1 x.kind) p.2) = true := by
    rw [List.all_eq_true]
    exact fun _ _ => List.all_eq_true.2 fun _ _ => rfl
  unfold accessing
  rw [h]
  exact if_pos h2

/-- A load is `MemRead` on the memory. -/
theorem State.load_eq (s : State) (a : Word) (n : Nat) : s.load a n = memRead s.mem a n := rfl

/-- A store is `MemWrite` on the memory. -/
theorem State.store_eq (s : State) (a : Word) (n : Nat) (v : Word) :
    s.store a n v = { s with mem := memWrite s.mem a n v } := rfl

variable {P : Config.Params}

/-- All that `accessing` can answer, at any parameters: a raised fault, a refusal, or `r`. -/
theorem accessing_cases (s : State P) (x : Accesses) (r : Out P) :
    (∃ c, s.accessFault x = some c ∧ accessing s x r = .next (s.raiseExc (c.setWidth 64))) ∨
    (s.accessFault x = none ∧ (∃ p ∈ x.items, inRange P (physical s p.1 x.kind) p.2 = false) ∧
      accessing s x r = .refused .outsideMemRange) ∨
    (s.accessFault x = none ∧ (∀ p ∈ x.items, inRange P (physical s p.1 x.kind) p.2 = true) ∧ accessing s x r = r) := by
  unfold accessing
  split
  · rename_i c h
    exact .inl ⟨c, h, rfl⟩
  · rename_i h
    split
    · rename_i h2
      exact .inr (.inr ⟨h, List.all_eq_true.1 h2, rfl⟩)
    · rename_i h2
      simp only [Bool.not_eq_true, List.all_eq_false] at h2
      exact .inr (.inl ⟨h, h2, rfl⟩)

/-! ### Fields after updates -/

@[simp] theorem State.writeX_v (s : State P) (r : BitVec 5) (a : Word) : (s.writeX r a).v = s.v := by unfold State.writeX; split <;> rfl
@[simp] theorem State.writeX_vm (s : State P) (r : BitVec 5) (a : Word) : (s.writeX r a).vm = s.vm := by unfold State.writeX; split <;> rfl
@[simp] theorem State.writeX_vl (s : State P) (r : BitVec 5) (a : Word) : (s.writeX r a).vl = s.vl := by unfold State.writeX; split <;> rfl
@[simp] theorem State.writeX_ip (s : State P) (r : BitVec 5) (a : Word) : (s.writeX r a).ip = s.ip := by unfold State.writeX; split <;> rfl
@[simp] theorem State.writeX_pmstack (s : State P) (r : BitVec 5) (a : Word) : (s.writeX r a).pmstack = s.pmstack := by unfold State.writeX; split <;> rfl
@[simp] theorem State.writeX_cause (s : State P) (r : BitVec 5) (a : Word) : (s.writeX r a).cause = s.cause := by unfold State.writeX; split <;> rfl
@[simp] theorem State.writeX_badaddr (s : State P) (r : BitVec 5) (a : Word) : (s.writeX r a).badaddr = s.badaddr := by unfold State.writeX; split <;> rfl
@[simp] theorem State.writeX_eip (s : State P) (r : BitVec 5) (a : Word) : (s.writeX r a).eip = s.eip := by unfold State.writeX; split <;> rfl
@[simp] theorem State.writeX_tvec (s : State P) (r : BitVec 5) (a : Word) : (s.writeX r a).tvec = s.tvec := by unfold State.writeX; split <;> rfl
@[simp] theorem State.writeX_semaphore (s : State P) (r : BitVec 5) (a : Word) : (s.writeX r a).semaphore = s.semaphore := by unfold State.writeX; split <;> rfl
@[simp] theorem State.writeX_csr (s : State P) (r : BitVec 5) (a : Word) : (s.writeX r a).csr = s.csr := by unfold State.writeX; split <;> rfl
@[simp] theorem State.writeX_tlb (s : State P) (r : BitVec 5) (a : Word) : (s.writeX r a).tlb = s.tlb := by unfold State.writeX; split <;> rfl
@[simp] theorem State.writeX_dcacheEnable (s : State P) (r : BitVec 5) (a : Word) : (s.writeX r a).dcacheEnable = s.dcacheEnable := by unfold State.writeX; split <;> rfl
@[simp] theorem State.writeX_queues (s : State P) (r : BitVec 5) (a : Word) : (s.writeX r a).queues = s.queues := by unfold State.writeX; split <;> rfl
@[simp] theorem State.writeX_coeff (s : State P) (r : BitVec 5) (a : Word) : (s.writeX r a).coeff = s.coeff := by unfold State.writeX; split <;> rfl
@[simp] theorem State.writeX_plotLog (s : State P) (r : BitVec 5) (a : Word) : (s.writeX r a).plotLog = s.plotLog := by unfold State.writeX; split <;> rfl
@[simp] theorem State.writeX_mem (s : State P) (r : BitVec 5) (a : Word) : (s.writeX r a).mem = s.mem := by unfold State.writeX; split <;> rfl
@[simp] theorem State.writeX_imem (s : State P) (r : BitVec 5) (a : Word) : (s.writeX r a).imem = s.imem := by unfold State.writeX; split <;> rfl
@[simp] theorem State.writeX_mods (s : State P) (r : BitVec 5) (a : Word) : (s.writeX r a).mods = s.mods := by unfold State.writeX; split <;> rfl
@[simp] theorem State.writeX_waiting (s : State P) (r : BitVec 5) (a : Word) : (s.writeX r a).waiting = s.waiting := by unfold State.writeX; split <;> rfl
@[simp] theorem State.writeX_irqLines (s : State P) (r : BitVec 5) (a : Word) : (s.writeX r a).irqLines = s.irqLines := by unfold State.writeX; split <;> rfl

@[simp] theorem State.writeV_x (s : State P) (r : BitVec 5) (a : VReg P) : (s.writeV r a).x = s.x := rfl
@[simp] theorem State.writeV_v (s : State P) (r : BitVec 5) (a : VReg P) : (s.writeV r a).v = s.v.set r.toNat a := rfl
@[simp] theorem State.writeV_vm (s : State P) (r : BitVec 5) (a : VReg P) : (s.writeV r a).vm = s.vm := rfl
@[simp] theorem State.writeV_vl (s : State P) (r : BitVec 5) (a : VReg P) : (s.writeV r a).vl = s.vl := rfl
@[simp] theorem State.writeV_ip (s : State P) (r : BitVec 5) (a : VReg P) : (s.writeV r a).ip = s.ip := rfl
@[simp] theorem State.writeV_pmstack (s : State P) (r : BitVec 5) (a : VReg P) : (s.writeV r a).pmstack = s.pmstack := rfl
@[simp] theorem State.writeV_cause (s : State P) (r : BitVec 5) (a : VReg P) : (s.writeV r a).cause = s.cause := rfl
@[simp] theorem State.writeV_badaddr (s : State P) (r : BitVec 5) (a : VReg P) : (s.writeV r a).badaddr = s.badaddr := rfl
@[simp] theorem State.writeV_eip (s : State P) (r : BitVec 5) (a : VReg P) : (s.writeV r a).eip = s.eip := rfl
@[simp] theorem State.writeV_tvec (s : State P) (r : BitVec 5) (a : VReg P) : (s.writeV r a).tvec = s.tvec := rfl
@[simp] theorem State.writeV_semaphore (s : State P) (r : BitVec 5) (a : VReg P) : (s.writeV r a).semaphore = s.semaphore := rfl
@[simp] theorem State.writeV_csr (s : State P) (r : BitVec 5) (a : VReg P) : (s.writeV r a).csr = s.csr := rfl
@[simp] theorem State.writeV_tlb (s : State P) (r : BitVec 5) (a : VReg P) : (s.writeV r a).tlb = s.tlb := rfl
@[simp] theorem State.writeV_dcacheEnable (s : State P) (r : BitVec 5) (a : VReg P) : (s.writeV r a).dcacheEnable = s.dcacheEnable := rfl
@[simp] theorem State.writeV_queues (s : State P) (r : BitVec 5) (a : VReg P) : (s.writeV r a).queues = s.queues := rfl
@[simp] theorem State.writeV_coeff (s : State P) (r : BitVec 5) (a : VReg P) : (s.writeV r a).coeff = s.coeff := rfl
@[simp] theorem State.writeV_plotLog (s : State P) (r : BitVec 5) (a : VReg P) : (s.writeV r a).plotLog = s.plotLog := rfl
@[simp] theorem State.writeV_mem (s : State P) (r : BitVec 5) (a : VReg P) : (s.writeV r a).mem = s.mem := rfl
@[simp] theorem State.writeV_imem (s : State P) (r : BitVec 5) (a : VReg P) : (s.writeV r a).imem = s.imem := rfl
@[simp] theorem State.writeV_mods (s : State P) (r : BitVec 5) (a : VReg P) : (s.writeV r a).mods = s.mods := rfl
@[simp] theorem State.writeV_waiting (s : State P) (r : BitVec 5) (a : VReg P) : (s.writeV r a).waiting = s.waiting := rfl
@[simp] theorem State.writeV_irqLines (s : State P) (r : BitVec 5) (a : VReg P) : (s.writeV r a).irqLines = s.irqLines := rfl

@[simp] theorem State.writeM_x (s : State P) (r : BitVec 3) (a : Mask P) : (s.writeM r a).x = s.x := rfl
@[simp] theorem State.writeM_v (s : State P) (r : BitVec 3) (a : Mask P) : (s.writeM r a).v = s.v := rfl
@[simp] theorem State.writeM_vm (s : State P) (r : BitVec 3) (a : Mask P) : (s.writeM r a).vm = s.vm.set r.toNat a := rfl
@[simp] theorem State.writeM_vl (s : State P) (r : BitVec 3) (a : Mask P) : (s.writeM r a).vl = s.vl := rfl
@[simp] theorem State.writeM_ip (s : State P) (r : BitVec 3) (a : Mask P) : (s.writeM r a).ip = s.ip := rfl
@[simp] theorem State.writeM_pmstack (s : State P) (r : BitVec 3) (a : Mask P) : (s.writeM r a).pmstack = s.pmstack := rfl
@[simp] theorem State.writeM_cause (s : State P) (r : BitVec 3) (a : Mask P) : (s.writeM r a).cause = s.cause := rfl
@[simp] theorem State.writeM_badaddr (s : State P) (r : BitVec 3) (a : Mask P) : (s.writeM r a).badaddr = s.badaddr := rfl
@[simp] theorem State.writeM_eip (s : State P) (r : BitVec 3) (a : Mask P) : (s.writeM r a).eip = s.eip := rfl
@[simp] theorem State.writeM_tvec (s : State P) (r : BitVec 3) (a : Mask P) : (s.writeM r a).tvec = s.tvec := rfl
@[simp] theorem State.writeM_semaphore (s : State P) (r : BitVec 3) (a : Mask P) : (s.writeM r a).semaphore = s.semaphore := rfl
@[simp] theorem State.writeM_csr (s : State P) (r : BitVec 3) (a : Mask P) : (s.writeM r a).csr = s.csr := rfl
@[simp] theorem State.writeM_tlb (s : State P) (r : BitVec 3) (a : Mask P) : (s.writeM r a).tlb = s.tlb := rfl
@[simp] theorem State.writeM_dcacheEnable (s : State P) (r : BitVec 3) (a : Mask P) : (s.writeM r a).dcacheEnable = s.dcacheEnable := rfl
@[simp] theorem State.writeM_queues (s : State P) (r : BitVec 3) (a : Mask P) : (s.writeM r a).queues = s.queues := rfl
@[simp] theorem State.writeM_coeff (s : State P) (r : BitVec 3) (a : Mask P) : (s.writeM r a).coeff = s.coeff := rfl
@[simp] theorem State.writeM_plotLog (s : State P) (r : BitVec 3) (a : Mask P) : (s.writeM r a).plotLog = s.plotLog := rfl
@[simp] theorem State.writeM_mem (s : State P) (r : BitVec 3) (a : Mask P) : (s.writeM r a).mem = s.mem := rfl
@[simp] theorem State.writeM_imem (s : State P) (r : BitVec 3) (a : Mask P) : (s.writeM r a).imem = s.imem := rfl
@[simp] theorem State.writeM_mods (s : State P) (r : BitVec 3) (a : Mask P) : (s.writeM r a).mods = s.mods := rfl
@[simp] theorem State.writeM_waiting (s : State P) (r : BitVec 3) (a : Mask P) : (s.writeM r a).waiting = s.waiting := rfl
@[simp] theorem State.writeM_irqLines (s : State P) (r : BitVec 3) (a : Mask P) : (s.writeM r a).irqLines = s.irqLines := rfl

@[simp] theorem State.store_x (s : State P) (a : Word) (n : Nat) (b : Word) : (s.store a n b).x = s.x := rfl
@[simp] theorem State.store_v (s : State P) (a : Word) (n : Nat) (b : Word) : (s.store a n b).v = s.v := rfl
@[simp] theorem State.store_vm (s : State P) (a : Word) (n : Nat) (b : Word) : (s.store a n b).vm = s.vm := rfl
@[simp] theorem State.store_vl (s : State P) (a : Word) (n : Nat) (b : Word) : (s.store a n b).vl = s.vl := rfl
@[simp] theorem State.store_ip (s : State P) (a : Word) (n : Nat) (b : Word) : (s.store a n b).ip = s.ip := rfl
@[simp] theorem State.store_pmstack (s : State P) (a : Word) (n : Nat) (b : Word) : (s.store a n b).pmstack = s.pmstack := rfl
@[simp] theorem State.store_cause (s : State P) (a : Word) (n : Nat) (b : Word) : (s.store a n b).cause = s.cause := rfl
@[simp] theorem State.store_badaddr (s : State P) (a : Word) (n : Nat) (b : Word) : (s.store a n b).badaddr = s.badaddr := rfl
@[simp] theorem State.store_eip (s : State P) (a : Word) (n : Nat) (b : Word) : (s.store a n b).eip = s.eip := rfl
@[simp] theorem State.store_tvec (s : State P) (a : Word) (n : Nat) (b : Word) : (s.store a n b).tvec = s.tvec := rfl
@[simp] theorem State.store_semaphore (s : State P) (a : Word) (n : Nat) (b : Word) : (s.store a n b).semaphore = s.semaphore := rfl
@[simp] theorem State.store_csr (s : State P) (a : Word) (n : Nat) (b : Word) : (s.store a n b).csr = s.csr := rfl
@[simp] theorem State.store_tlb (s : State P) (a : Word) (n : Nat) (b : Word) : (s.store a n b).tlb = s.tlb := rfl
@[simp] theorem State.store_dcacheEnable (s : State P) (a : Word) (n : Nat) (b : Word) : (s.store a n b).dcacheEnable = s.dcacheEnable := rfl
@[simp] theorem State.store_queues (s : State P) (a : Word) (n : Nat) (b : Word) : (s.store a n b).queues = s.queues := rfl
@[simp] theorem State.store_coeff (s : State P) (a : Word) (n : Nat) (b : Word) : (s.store a n b).coeff = s.coeff := rfl
@[simp] theorem State.store_plotLog (s : State P) (a : Word) (n : Nat) (b : Word) : (s.store a n b).plotLog = s.plotLog := rfl
@[simp] theorem State.store_mem (s : State) (a : Word) (n : Nat) (b : Word) : (s.store a n b).mem = memWrite s.mem a n b := rfl
@[simp] theorem State.store_imem (s : State P) (a : Word) (n : Nat) (b : Word) : (s.store a n b).imem = s.imem := rfl
@[simp] theorem State.store_mods (s : State P) (a : Word) (n : Nat) (b : Word) : (s.store a n b).mods = s.mods := rfl
@[simp] theorem State.store_waiting (s : State P) (a : Word) (n : Nat) (b : Word) : (s.store a n b).waiting = s.waiting := rfl
@[simp] theorem State.store_irqLines (s : State P) (a : Word) (n : Nat) (b : Word) : (s.store a n b).irqLines = s.irqLines := rfl

/-- At the defaults TRANSLATE is the same in every state. -/
@[simp] theorem State.storeFrom_eq (s u : State) (a : Word) (n : Nat) (v : Word) : s.storeFrom u a n v = s.store a n v := rfl

@[simp] theorem State.storeFrom_x (s u : State P) (a : Word) (n : Nat) (b : Word) : (s.storeFrom u a n b).x = s.x := rfl
@[simp] theorem State.storeFrom_v (s u : State P) (a : Word) (n : Nat) (b : Word) : (s.storeFrom u a n b).v = s.v := rfl
@[simp] theorem State.storeFrom_vm (s u : State P) (a : Word) (n : Nat) (b : Word) : (s.storeFrom u a n b).vm = s.vm := rfl
@[simp] theorem State.storeFrom_vl (s u : State P) (a : Word) (n : Nat) (b : Word) : (s.storeFrom u a n b).vl = s.vl := rfl
@[simp] theorem State.storeFrom_ip (s u : State P) (a : Word) (n : Nat) (b : Word) : (s.storeFrom u a n b).ip = s.ip := rfl
@[simp] theorem State.storeFrom_pmstack (s u : State P) (a : Word) (n : Nat) (b : Word) : (s.storeFrom u a n b).pmstack = s.pmstack := rfl
@[simp] theorem State.storeFrom_cause (s u : State P) (a : Word) (n : Nat) (b : Word) : (s.storeFrom u a n b).cause = s.cause := rfl
@[simp] theorem State.storeFrom_badaddr (s u : State P) (a : Word) (n : Nat) (b : Word) : (s.storeFrom u a n b).badaddr = s.badaddr := rfl
@[simp] theorem State.storeFrom_eip (s u : State P) (a : Word) (n : Nat) (b : Word) : (s.storeFrom u a n b).eip = s.eip := rfl
@[simp] theorem State.storeFrom_tvec (s u : State P) (a : Word) (n : Nat) (b : Word) : (s.storeFrom u a n b).tvec = s.tvec := rfl
@[simp] theorem State.storeFrom_semaphore (s u : State P) (a : Word) (n : Nat) (b : Word) : (s.storeFrom u a n b).semaphore = s.semaphore := rfl
@[simp] theorem State.storeFrom_csr (s u : State P) (a : Word) (n : Nat) (b : Word) : (s.storeFrom u a n b).csr = s.csr := rfl
@[simp] theorem State.storeFrom_tlb (s u : State P) (a : Word) (n : Nat) (b : Word) : (s.storeFrom u a n b).tlb = s.tlb := rfl
@[simp] theorem State.storeFrom_dcacheEnable (s u : State P) (a : Word) (n : Nat) (b : Word) : (s.storeFrom u a n b).dcacheEnable = s.dcacheEnable := rfl
@[simp] theorem State.storeFrom_queues (s u : State P) (a : Word) (n : Nat) (b : Word) : (s.storeFrom u a n b).queues = s.queues := rfl
@[simp] theorem State.storeFrom_coeff (s u : State P) (a : Word) (n : Nat) (b : Word) : (s.storeFrom u a n b).coeff = s.coeff := rfl
@[simp] theorem State.storeFrom_plotLog (s u : State P) (a : Word) (n : Nat) (b : Word) : (s.storeFrom u a n b).plotLog = s.plotLog := rfl
@[simp] theorem State.storeFrom_imem (s u : State P) (a : Word) (n : Nat) (b : Word) : (s.storeFrom u a n b).imem = s.imem := rfl
@[simp] theorem State.storeFrom_mods (s u : State P) (a : Word) (n : Nat) (b : Word) : (s.storeFrom u a n b).mods = s.mods := rfl
@[simp] theorem State.storeFrom_waiting (s u : State P) (a : Word) (n : Nat) (b : Word) : (s.storeFrom u a n b).waiting = s.waiting := rfl
@[simp] theorem State.storeFrom_irqLines (s u : State P) (a : Word) (n : Nat) (b : Word) : (s.storeFrom u a n b).irqLines = s.irqLines := rfl

@[simp] theorem State.jump_x (s : State P) (a : Word) : (s.jump a).x = s.x := rfl
@[simp] theorem State.jump_v (s : State P) (a : Word) : (s.jump a).v = s.v := rfl
@[simp] theorem State.jump_vm (s : State P) (a : Word) : (s.jump a).vm = s.vm := rfl
@[simp] theorem State.jump_vl (s : State P) (a : Word) : (s.jump a).vl = s.vl := rfl
@[simp] theorem State.jump_ip (s : State P) (a : Word) : (s.jump a).ip = a := rfl
@[simp] theorem State.jump_pmstack (s : State P) (a : Word) : (s.jump a).pmstack = s.pmstack := rfl
@[simp] theorem State.jump_cause (s : State P) (a : Word) : (s.jump a).cause = s.cause := rfl
@[simp] theorem State.jump_badaddr (s : State P) (a : Word) : (s.jump a).badaddr = s.badaddr := rfl
@[simp] theorem State.jump_eip (s : State P) (a : Word) : (s.jump a).eip = s.eip := rfl
@[simp] theorem State.jump_tvec (s : State P) (a : Word) : (s.jump a).tvec = s.tvec := rfl
@[simp] theorem State.jump_semaphore (s : State P) (a : Word) : (s.jump a).semaphore = s.semaphore := rfl
@[simp] theorem State.jump_csr (s : State P) (a : Word) : (s.jump a).csr = s.csr := rfl
@[simp] theorem State.jump_tlb (s : State P) (a : Word) : (s.jump a).tlb = s.tlb := rfl
@[simp] theorem State.jump_dcacheEnable (s : State P) (a : Word) : (s.jump a).dcacheEnable = s.dcacheEnable := rfl
@[simp] theorem State.jump_queues (s : State P) (a : Word) : (s.jump a).queues = s.queues := rfl
@[simp] theorem State.jump_coeff (s : State P) (a : Word) : (s.jump a).coeff = s.coeff := rfl
@[simp] theorem State.jump_plotLog (s : State P) (a : Word) : (s.jump a).plotLog = s.plotLog := rfl
@[simp] theorem State.jump_mem (s : State P) (a : Word) : (s.jump a).mem = s.mem := rfl
@[simp] theorem State.jump_imem (s : State P) (a : Word) : (s.jump a).imem = s.imem := rfl
@[simp] theorem State.jump_mods (s : State P) (a : Word) : (s.jump a).mods = Mods.none := rfl
@[simp] theorem State.jump_waiting (s : State P) (a : Word) : (s.jump a).waiting = s.waiting := rfl
@[simp] theorem State.jump_irqLines (s : State P) (a : Word) : (s.jump a).irqLines = s.irqLines := rfl

@[simp] theorem State.finish_x (s : State P) : (s.finish).x = s.x := rfl
@[simp] theorem State.finish_v (s : State P) : (s.finish).v = s.v := rfl
@[simp] theorem State.finish_vm (s : State P) : (s.finish).vm = s.vm := rfl
@[simp] theorem State.finish_vl (s : State P) : (s.finish).vl = s.vl := rfl
@[simp] theorem State.finish_ip (s : State P) : (s.finish).ip = s.ip + 9#64 := rfl
@[simp] theorem State.finish_pmstack (s : State P) : (s.finish).pmstack = s.pmstack := rfl
@[simp] theorem State.finish_cause (s : State P) : (s.finish).cause = s.cause := rfl
@[simp] theorem State.finish_badaddr (s : State P) : (s.finish).badaddr = s.badaddr := rfl
@[simp] theorem State.finish_eip (s : State P) : (s.finish).eip = s.eip := rfl
@[simp] theorem State.finish_tvec (s : State P) : (s.finish).tvec = s.tvec := rfl
@[simp] theorem State.finish_semaphore (s : State P) : (s.finish).semaphore = s.semaphore := rfl
@[simp] theorem State.finish_csr (s : State P) : (s.finish).csr = s.csr := rfl
@[simp] theorem State.finish_tlb (s : State P) : (s.finish).tlb = s.tlb := rfl
@[simp] theorem State.finish_dcacheEnable (s : State P) : (s.finish).dcacheEnable = s.dcacheEnable := rfl
@[simp] theorem State.finish_queues (s : State P) : (s.finish).queues = s.queues := rfl
@[simp] theorem State.finish_coeff (s : State P) : (s.finish).coeff = s.coeff := rfl
@[simp] theorem State.finish_plotLog (s : State P) : (s.finish).plotLog = s.plotLog := rfl
@[simp] theorem State.finish_mem (s : State P) : (s.finish).mem = s.mem := rfl
@[simp] theorem State.finish_imem (s : State P) : (s.finish).imem = s.imem := rfl
@[simp] theorem State.finish_mods (s : State P) : (s.finish).mods = Mods.none := rfl
@[simp] theorem State.finish_waiting (s : State P) : (s.finish).waiting = s.waiting := rfl
@[simp] theorem State.finish_irqLines (s : State P) : (s.finish).irqLines = s.irqLines := rfl

@[simp] theorem State.finishShort_x (s : State P) : (s.finishShort).x = s.x := rfl
@[simp] theorem State.finishShort_v (s : State P) : (s.finishShort).v = s.v := rfl
@[simp] theorem State.finishShort_vm (s : State P) : (s.finishShort).vm = s.vm := rfl
@[simp] theorem State.finishShort_vl (s : State P) : (s.finishShort).vl = s.vl := rfl
@[simp] theorem State.finishShort_ip (s : State P) : (s.finishShort).ip = s.ip + 5#64 := rfl
@[simp] theorem State.finishShort_pmstack (s : State P) : (s.finishShort).pmstack = s.pmstack := rfl
@[simp] theorem State.finishShort_cause (s : State P) : (s.finishShort).cause = s.cause := rfl
@[simp] theorem State.finishShort_badaddr (s : State P) : (s.finishShort).badaddr = s.badaddr := rfl
@[simp] theorem State.finishShort_eip (s : State P) : (s.finishShort).eip = s.eip := rfl
@[simp] theorem State.finishShort_tvec (s : State P) : (s.finishShort).tvec = s.tvec := rfl
@[simp] theorem State.finishShort_semaphore (s : State P) : (s.finishShort).semaphore = s.semaphore := rfl
@[simp] theorem State.finishShort_csr (s : State P) : (s.finishShort).csr = s.csr := rfl
@[simp] theorem State.finishShort_tlb (s : State P) : (s.finishShort).tlb = s.tlb := rfl
@[simp] theorem State.finishShort_dcacheEnable (s : State P) : (s.finishShort).dcacheEnable = s.dcacheEnable := rfl
@[simp] theorem State.finishShort_queues (s : State P) : (s.finishShort).queues = s.queues := rfl
@[simp] theorem State.finishShort_coeff (s : State P) : (s.finishShort).coeff = s.coeff := rfl
@[simp] theorem State.finishShort_plotLog (s : State P) : (s.finishShort).plotLog = s.plotLog := rfl
@[simp] theorem State.finishShort_mem (s : State P) : (s.finishShort).mem = s.mem := rfl
@[simp] theorem State.finishShort_imem (s : State P) : (s.finishShort).imem = s.imem := rfl
@[simp] theorem State.finishShort_mods (s : State P) : (s.finishShort).mods = Mods.none := rfl
@[simp] theorem State.finishShort_waiting (s : State P) : (s.finishShort).waiting = s.waiting := rfl
@[simp] theorem State.finishShort_irqLines (s : State P) : (s.finishShort).irqLines = s.irqLines := rfl

@[simp] theorem State.setCause_x (s : State P) (m : Mode) (a : Word) : (s.setCause m a).x = s.x := rfl
@[simp] theorem State.setCause_v (s : State P) (m : Mode) (a : Word) : (s.setCause m a).v = s.v := rfl
@[simp] theorem State.setCause_vm (s : State P) (m : Mode) (a : Word) : (s.setCause m a).vm = s.vm := rfl
@[simp] theorem State.setCause_vl (s : State P) (m : Mode) (a : Word) : (s.setCause m a).vl = s.vl := rfl
@[simp] theorem State.setCause_ip (s : State P) (m : Mode) (a : Word) : (s.setCause m a).ip = s.ip := rfl
@[simp] theorem State.setCause_pmstack (s : State P) (m : Mode) (a : Word) : (s.setCause m a).pmstack = s.pmstack := rfl
@[simp] theorem State.setCause_cause (s : State P) (m : Mode) (a : Word) : (s.setCause m a).cause = s.cause.set m.index a := rfl
@[simp] theorem State.setCause_badaddr (s : State P) (m : Mode) (a : Word) : (s.setCause m a).badaddr = s.badaddr := rfl
@[simp] theorem State.setCause_eip (s : State P) (m : Mode) (a : Word) : (s.setCause m a).eip = s.eip := rfl
@[simp] theorem State.setCause_tvec (s : State P) (m : Mode) (a : Word) : (s.setCause m a).tvec = s.tvec := rfl
@[simp] theorem State.setCause_semaphore (s : State P) (m : Mode) (a : Word) : (s.setCause m a).semaphore = s.semaphore := rfl
@[simp] theorem State.setCause_csr (s : State P) (m : Mode) (a : Word) : (s.setCause m a).csr = s.csr := rfl
@[simp] theorem State.setCause_tlb (s : State P) (m : Mode) (a : Word) : (s.setCause m a).tlb = s.tlb := rfl
@[simp] theorem State.setCause_dcacheEnable (s : State P) (m : Mode) (a : Word) : (s.setCause m a).dcacheEnable = s.dcacheEnable := rfl
@[simp] theorem State.setCause_queues (s : State P) (m : Mode) (a : Word) : (s.setCause m a).queues = s.queues := rfl
@[simp] theorem State.setCause_coeff (s : State P) (m : Mode) (a : Word) : (s.setCause m a).coeff = s.coeff := rfl
@[simp] theorem State.setCause_plotLog (s : State P) (m : Mode) (a : Word) : (s.setCause m a).plotLog = s.plotLog := rfl
@[simp] theorem State.setCause_mem (s : State P) (m : Mode) (a : Word) : (s.setCause m a).mem = s.mem := rfl
@[simp] theorem State.setCause_imem (s : State P) (m : Mode) (a : Word) : (s.setCause m a).imem = s.imem := rfl
@[simp] theorem State.setCause_mods (s : State P) (m : Mode) (a : Word) : (s.setCause m a).mods = s.mods := rfl
@[simp] theorem State.setCause_waiting (s : State P) (m : Mode) (a : Word) : (s.setCause m a).waiting = s.waiting := rfl
@[simp] theorem State.setCause_irqLines (s : State P) (m : Mode) (a : Word) : (s.setCause m a).irqLines = s.irqLines := rfl

@[simp] theorem State.setBadaddr_x (s : State P) (m : Mode) (a : Word) : (s.setBadaddr m a).x = s.x := rfl
@[simp] theorem State.setBadaddr_v (s : State P) (m : Mode) (a : Word) : (s.setBadaddr m a).v = s.v := rfl
@[simp] theorem State.setBadaddr_vm (s : State P) (m : Mode) (a : Word) : (s.setBadaddr m a).vm = s.vm := rfl
@[simp] theorem State.setBadaddr_vl (s : State P) (m : Mode) (a : Word) : (s.setBadaddr m a).vl = s.vl := rfl
@[simp] theorem State.setBadaddr_ip (s : State P) (m : Mode) (a : Word) : (s.setBadaddr m a).ip = s.ip := rfl
@[simp] theorem State.setBadaddr_pmstack (s : State P) (m : Mode) (a : Word) : (s.setBadaddr m a).pmstack = s.pmstack := rfl
@[simp] theorem State.setBadaddr_cause (s : State P) (m : Mode) (a : Word) : (s.setBadaddr m a).cause = s.cause := rfl
@[simp] theorem State.setBadaddr_badaddr (s : State P) (m : Mode) (a : Word) : (s.setBadaddr m a).badaddr = s.badaddr.set m.index a := rfl
@[simp] theorem State.setBadaddr_eip (s : State P) (m : Mode) (a : Word) : (s.setBadaddr m a).eip = s.eip := rfl
@[simp] theorem State.setBadaddr_tvec (s : State P) (m : Mode) (a : Word) : (s.setBadaddr m a).tvec = s.tvec := rfl
@[simp] theorem State.setBadaddr_semaphore (s : State P) (m : Mode) (a : Word) : (s.setBadaddr m a).semaphore = s.semaphore := rfl
@[simp] theorem State.setBadaddr_csr (s : State P) (m : Mode) (a : Word) : (s.setBadaddr m a).csr = s.csr := rfl
@[simp] theorem State.setBadaddr_tlb (s : State P) (m : Mode) (a : Word) : (s.setBadaddr m a).tlb = s.tlb := rfl
@[simp] theorem State.setBadaddr_dcacheEnable (s : State P) (m : Mode) (a : Word) : (s.setBadaddr m a).dcacheEnable = s.dcacheEnable := rfl
@[simp] theorem State.setBadaddr_queues (s : State P) (m : Mode) (a : Word) : (s.setBadaddr m a).queues = s.queues := rfl
@[simp] theorem State.setBadaddr_coeff (s : State P) (m : Mode) (a : Word) : (s.setBadaddr m a).coeff = s.coeff := rfl
@[simp] theorem State.setBadaddr_plotLog (s : State P) (m : Mode) (a : Word) : (s.setBadaddr m a).plotLog = s.plotLog := rfl
@[simp] theorem State.setBadaddr_mem (s : State P) (m : Mode) (a : Word) : (s.setBadaddr m a).mem = s.mem := rfl
@[simp] theorem State.setBadaddr_imem (s : State P) (m : Mode) (a : Word) : (s.setBadaddr m a).imem = s.imem := rfl
@[simp] theorem State.setBadaddr_mods (s : State P) (m : Mode) (a : Word) : (s.setBadaddr m a).mods = s.mods := rfl
@[simp] theorem State.setBadaddr_waiting (s : State P) (m : Mode) (a : Word) : (s.setBadaddr m a).waiting = s.waiting := rfl
@[simp] theorem State.setBadaddr_irqLines (s : State P) (m : Mode) (a : Word) : (s.setBadaddr m a).irqLines = s.irqLines := rfl

@[simp] theorem State.setTvec_x (s : State P) (m : Mode) (a : Word) : (s.setTvec m a).x = s.x := rfl
@[simp] theorem State.setTvec_v (s : State P) (m : Mode) (a : Word) : (s.setTvec m a).v = s.v := rfl
@[simp] theorem State.setTvec_vm (s : State P) (m : Mode) (a : Word) : (s.setTvec m a).vm = s.vm := rfl
@[simp] theorem State.setTvec_vl (s : State P) (m : Mode) (a : Word) : (s.setTvec m a).vl = s.vl := rfl
@[simp] theorem State.setTvec_ip (s : State P) (m : Mode) (a : Word) : (s.setTvec m a).ip = s.ip := rfl
@[simp] theorem State.setTvec_pmstack (s : State P) (m : Mode) (a : Word) : (s.setTvec m a).pmstack = s.pmstack := rfl
@[simp] theorem State.setTvec_cause (s : State P) (m : Mode) (a : Word) : (s.setTvec m a).cause = s.cause := rfl
@[simp] theorem State.setTvec_badaddr (s : State P) (m : Mode) (a : Word) : (s.setTvec m a).badaddr = s.badaddr := rfl
@[simp] theorem State.setTvec_eip (s : State P) (m : Mode) (a : Word) : (s.setTvec m a).eip = s.eip := rfl
@[simp] theorem State.setTvec_tvec (s : State P) (m : Mode) (a : Word) : (s.setTvec m a).tvec = s.tvec.set m.index a := rfl
@[simp] theorem State.setTvec_semaphore (s : State P) (m : Mode) (a : Word) : (s.setTvec m a).semaphore = s.semaphore := rfl
@[simp] theorem State.setTvec_csr (s : State P) (m : Mode) (a : Word) : (s.setTvec m a).csr = s.csr := rfl
@[simp] theorem State.setTvec_tlb (s : State P) (m : Mode) (a : Word) : (s.setTvec m a).tlb = s.tlb := rfl
@[simp] theorem State.setTvec_dcacheEnable (s : State P) (m : Mode) (a : Word) : (s.setTvec m a).dcacheEnable = s.dcacheEnable := rfl
@[simp] theorem State.setTvec_queues (s : State P) (m : Mode) (a : Word) : (s.setTvec m a).queues = s.queues := rfl
@[simp] theorem State.setTvec_coeff (s : State P) (m : Mode) (a : Word) : (s.setTvec m a).coeff = s.coeff := rfl
@[simp] theorem State.setTvec_plotLog (s : State P) (m : Mode) (a : Word) : (s.setTvec m a).plotLog = s.plotLog := rfl
@[simp] theorem State.setTvec_mem (s : State P) (m : Mode) (a : Word) : (s.setTvec m a).mem = s.mem := rfl
@[simp] theorem State.setTvec_imem (s : State P) (m : Mode) (a : Word) : (s.setTvec m a).imem = s.imem := rfl
@[simp] theorem State.setTvec_mods (s : State P) (m : Mode) (a : Word) : (s.setTvec m a).mods = s.mods := rfl
@[simp] theorem State.setTvec_waiting (s : State P) (m : Mode) (a : Word) : (s.setTvec m a).waiting = s.waiting := rfl
@[simp] theorem State.setTvec_irqLines (s : State P) (m : Mode) (a : Word) : (s.setTvec m a).irqLines = s.irqLines := rfl

@[simp] theorem State.raiseExc_x (s : State P) (c : Word) : (s.raiseExc c).x = s.x := rfl
@[simp] theorem State.raiseExc_v (s : State P) (c : Word) : (s.raiseExc c).v = s.v := rfl
@[simp] theorem State.raiseExc_vm (s : State P) (c : Word) : (s.raiseExc c).vm = s.vm := rfl
@[simp] theorem State.raiseExc_vl (s : State P) (c : Word) : (s.raiseExc c).vl = s.vl := rfl
@[simp] theorem State.raiseExc_ip (s : State P) (c : Word) : (s.raiseExc c).ip = s.tvecOf .debug := rfl
@[simp] theorem State.raiseExc_pmstack (s : State P) (c : Word) : (s.raiseExc c).pmstack = s.pmstack <<< 4 ||| 0xa#64 := rfl
@[simp] theorem State.raiseExc_cause (s : State P) (c : Word) : (s.raiseExc c).cause = s.cause.set (Mode.index .debug) c := rfl
@[simp] theorem State.raiseExc_badaddr (s : State P) (c : Word) : (s.raiseExc c).badaddr = s.badaddr := rfl
@[simp] theorem State.raiseExc_eip (s : State P) (c : Word) : (s.raiseExc c).eip = s.groupAddr := rfl
@[simp] theorem State.raiseExc_tvec (s : State P) (c : Word) : (s.raiseExc c).tvec = s.tvec := rfl
@[simp] theorem State.raiseExc_semaphore (s : State P) (c : Word) : (s.raiseExc c).semaphore = s.semaphore := rfl
@[simp] theorem State.raiseExc_csr (s : State P) (c : Word) : (s.raiseExc c).csr = s.csr := rfl
@[simp] theorem State.raiseExc_tlb (s : State P) (c : Word) : (s.raiseExc c).tlb = s.tlb := rfl
@[simp] theorem State.raiseExc_dcacheEnable (s : State P) (c : Word) : (s.raiseExc c).dcacheEnable = s.dcacheEnable := rfl
@[simp] theorem State.raiseExc_queues (s : State P) (c : Word) : (s.raiseExc c).queues = s.queues := rfl
@[simp] theorem State.raiseExc_coeff (s : State P) (c : Word) : (s.raiseExc c).coeff = s.coeff := rfl
@[simp] theorem State.raiseExc_plotLog (s : State P) (c : Word) : (s.raiseExc c).plotLog = s.plotLog := rfl
@[simp] theorem State.raiseExc_mem (s : State P) (c : Word) : (s.raiseExc c).mem = s.mem := rfl
@[simp] theorem State.raiseExc_imem (s : State P) (c : Word) : (s.raiseExc c).imem = s.imem := rfl
@[simp] theorem State.raiseExc_mods (s : State P) (c : Word) : (s.raiseExc c).mods = Mods.none := rfl
@[simp] theorem State.raiseExc_waiting (s : State P) (c : Word) : (s.raiseExc c).waiting = s.waiting := rfl
@[simp] theorem State.raiseExc_irqLines (s : State P) (c : Word) : (s.raiseExc c).irqLines = s.irqLines := rfl

@[simp] theorem State.returnExc_x (s : State P) (b f : Word) : (s.returnExc b f).x = s.x := rfl
@[simp] theorem State.returnExc_v (s : State P) (b f : Word) : (s.returnExc b f).v = s.v := rfl
@[simp] theorem State.returnExc_vm (s : State P) (b f : Word) : (s.returnExc b f).vm = s.vm := rfl
@[simp] theorem State.returnExc_vl (s : State P) (b f : Word) : (s.returnExc b f).vl = s.vl := rfl
@[simp] theorem State.returnExc_ip (s : State P) (b f : Word) : (s.returnExc b f).ip = s.eip + f := rfl
@[simp] theorem State.returnExc_pmstack (s : State P) (b f : Word) : (s.returnExc b f).pmstack = s.pmstack >>> 4 := rfl
@[simp] theorem State.returnExc_cause (s : State P) (b f : Word) : (s.returnExc b f).cause = s.cause := rfl
@[simp] theorem State.returnExc_badaddr (s : State P) (b f : Word) : (s.returnExc b f).badaddr = s.badaddr := rfl
@[simp] theorem State.returnExc_eip (s : State P) (b f : Word) : (s.returnExc b f).eip = s.eip := rfl
@[simp] theorem State.returnExc_tvec (s : State P) (b f : Word) : (s.returnExc b f).tvec = s.tvec := rfl
@[simp] theorem State.returnExc_csr (s : State P) (b f : Word) : (s.returnExc b f).csr = s.csr := rfl
@[simp] theorem State.returnExc_tlb (s : State P) (b f : Word) : (s.returnExc b f).tlb = s.tlb := rfl
@[simp] theorem State.returnExc_dcacheEnable (s : State P) (b f : Word) : (s.returnExc b f).dcacheEnable = s.dcacheEnable := rfl
@[simp] theorem State.returnExc_queues (s : State P) (b f : Word) : (s.returnExc b f).queues = s.queues := rfl
@[simp] theorem State.returnExc_coeff (s : State P) (b f : Word) : (s.returnExc b f).coeff = s.coeff := rfl
@[simp] theorem State.returnExc_plotLog (s : State P) (b f : Word) : (s.returnExc b f).plotLog = s.plotLog := rfl
@[simp] theorem State.returnExc_mem (s : State P) (b f : Word) : (s.returnExc b f).mem = s.mem := rfl
@[simp] theorem State.returnExc_imem (s : State P) (b f : Word) : (s.returnExc b f).imem = s.imem := rfl
@[simp] theorem State.returnExc_mods (s : State P) (b f : Word) : (s.returnExc b f).mods = Mods.none := rfl
@[simp] theorem State.returnExc_waiting (s : State P) (b f : Word) : (s.returnExc b f).waiting = s.waiting := rfl
@[simp] theorem State.returnExc_irqLines (s : State P) (b f : Word) : (s.returnExc b f).irqLines = s.irqLines := rfl

@[simp] theorem State.redirect_x (s : State P) (m : BitVec 2) : (s.redirect m).x = s.x := rfl
@[simp] theorem State.redirect_v (s : State P) (m : BitVec 2) : (s.redirect m).v = s.v := rfl
@[simp] theorem State.redirect_vm (s : State P) (m : BitVec 2) : (s.redirect m).vm = s.vm := rfl
@[simp] theorem State.redirect_vl (s : State P) (m : BitVec 2) : (s.redirect m).vl = s.vl := rfl
@[simp] theorem State.redirect_ip (s : State P) (m : BitVec 2) : (s.redirect m).ip = s.tvecOf (Mode.ofField m) := rfl
@[simp] theorem State.redirect_pmstack (s : State P) (m : BitVec 2) : (s.redirect m).pmstack = s.pmstack.extractLsb' 4 60 ++ ((0#1 ++ m ++ 0#1 : BitVec 4)) := rfl
@[simp] theorem State.redirect_cause (s : State P) (m : BitVec 2) : (s.redirect m).cause = s.cause.set (Mode.ofField m).index (s.causeOf s.mode) := rfl
@[simp] theorem State.redirect_badaddr (s : State P) (m : BitVec 2) : (s.redirect m).badaddr = s.badaddr.set (Mode.ofField m).index (s.badaddrOf s.mode) := rfl
@[simp] theorem State.redirect_eip (s : State P) (m : BitVec 2) : (s.redirect m).eip = s.eip := rfl
@[simp] theorem State.redirect_tvec (s : State P) (m : BitVec 2) : (s.redirect m).tvec = s.tvec := rfl
@[simp] theorem State.redirect_semaphore (s : State P) (m : BitVec 2) : (s.redirect m).semaphore = s.semaphore := rfl
@[simp] theorem State.redirect_csr (s : State P) (m : BitVec 2) : (s.redirect m).csr = s.csr := rfl
@[simp] theorem State.redirect_tlb (s : State P) (m : BitVec 2) : (s.redirect m).tlb = s.tlb := rfl
@[simp] theorem State.redirect_dcacheEnable (s : State P) (m : BitVec 2) : (s.redirect m).dcacheEnable = s.dcacheEnable := rfl
@[simp] theorem State.redirect_queues (s : State P) (m : BitVec 2) : (s.redirect m).queues = s.queues := rfl
@[simp] theorem State.redirect_coeff (s : State P) (m : BitVec 2) : (s.redirect m).coeff = s.coeff := rfl
@[simp] theorem State.redirect_plotLog (s : State P) (m : BitVec 2) : (s.redirect m).plotLog = s.plotLog := rfl
@[simp] theorem State.redirect_mem (s : State P) (m : BitVec 2) : (s.redirect m).mem = s.mem := rfl
@[simp] theorem State.redirect_imem (s : State P) (m : BitVec 2) : (s.redirect m).imem = s.imem := rfl
@[simp] theorem State.redirect_mods (s : State P) (m : BitVec 2) : (s.redirect m).mods = Mods.none := rfl
@[simp] theorem State.redirect_waiting (s : State P) (m : BitVec 2) : (s.redirect m).waiting = s.waiting := rfl
@[simp] theorem State.redirect_irqLines (s : State P) (m : BitVec 2) : (s.redirect m).irqLines = s.irqLines := rfl

@[simp] theorem State.csrWrite_x (s : State) (n : BitVec 16) (a : Word) : (s.csrWrite n a).x = s.x := rfl
@[simp] theorem State.csrWrite_v (s : State) (n : BitVec 16) (a : Word) : (s.csrWrite n a).v = s.v := rfl
@[simp] theorem State.csrWrite_vm (s : State) (n : BitVec 16) (a : Word) : (s.csrWrite n a).vm = s.vm := rfl
@[simp] theorem State.csrWrite_vl (s : State) (n : BitVec 16) (a : Word) : (s.csrWrite n a).vl = s.vl := rfl
@[simp] theorem State.csrWrite_ip (s : State) (n : BitVec 16) (a : Word) : (s.csrWrite n a).ip = s.ip := rfl
@[simp] theorem State.csrWrite_pmstack (s : State) (n : BitVec 16) (a : Word) : (s.csrWrite n a).pmstack = s.pmstack := rfl
@[simp] theorem State.csrWrite_cause (s : State) (n : BitVec 16) (a : Word) : (s.csrWrite n a).cause = s.cause := rfl
@[simp] theorem State.csrWrite_badaddr (s : State) (n : BitVec 16) (a : Word) : (s.csrWrite n a).badaddr = s.badaddr := rfl
@[simp] theorem State.csrWrite_eip (s : State) (n : BitVec 16) (a : Word) : (s.csrWrite n a).eip = s.eip := rfl
@[simp] theorem State.csrWrite_tvec (s : State) (n : BitVec 16) (a : Word) : (s.csrWrite n a).tvec = s.tvec := rfl
@[simp] theorem State.csrWrite_semaphore (s : State) (n : BitVec 16) (a : Word) : (s.csrWrite n a).semaphore = s.semaphore := rfl
@[simp] theorem State.csrWrite_csr (s : State) (n : BitVec 16) (a : Word) : (s.csrWrite n a).csr = sparseSet s.csr n.toNat a := rfl
@[simp] theorem State.csrWrite_tlb (s : State) (n : BitVec 16) (a : Word) : (s.csrWrite n a).tlb = s.tlb := rfl
@[simp] theorem State.csrWrite_dcacheEnable (s : State) (n : BitVec 16) (a : Word) : (s.csrWrite n a).dcacheEnable = s.dcacheEnable := rfl
@[simp] theorem State.csrWrite_queues (s : State) (n : BitVec 16) (a : Word) : (s.csrWrite n a).queues = s.queues := rfl
@[simp] theorem State.csrWrite_coeff (s : State) (n : BitVec 16) (a : Word) : (s.csrWrite n a).coeff = s.coeff := rfl
@[simp] theorem State.csrWrite_plotLog (s : State) (n : BitVec 16) (a : Word) : (s.csrWrite n a).plotLog = s.plotLog := rfl
@[simp] theorem State.csrWrite_mem (s : State) (n : BitVec 16) (a : Word) : (s.csrWrite n a).mem = s.mem := rfl
@[simp] theorem State.csrWrite_imem (s : State) (n : BitVec 16) (a : Word) : (s.csrWrite n a).imem = s.imem := rfl
@[simp] theorem State.csrWrite_mods (s : State) (n : BitVec 16) (a : Word) : (s.csrWrite n a).mods = s.mods := rfl
@[simp] theorem State.csrWrite_waiting (s : State) (n : BitVec 16) (a : Word) : (s.csrWrite n a).waiting = s.waiting := rfl
@[simp] theorem State.csrWrite_irqLines (s : State) (n : BitVec 16) (a : Word) : (s.csrWrite n a).irqLines = s.irqLines := rfl

@[simp] theorem State.setQueue_x (s : State P) (q : QueueNo P) (l : List Word) : (s.setQueue q l).x = s.x := rfl
@[simp] theorem State.setQueue_v (s : State P) (q : QueueNo P) (l : List Word) : (s.setQueue q l).v = s.v := rfl
@[simp] theorem State.setQueue_vm (s : State P) (q : QueueNo P) (l : List Word) : (s.setQueue q l).vm = s.vm := rfl
@[simp] theorem State.setQueue_vl (s : State P) (q : QueueNo P) (l : List Word) : (s.setQueue q l).vl = s.vl := rfl
@[simp] theorem State.setQueue_ip (s : State P) (q : QueueNo P) (l : List Word) : (s.setQueue q l).ip = s.ip := rfl
@[simp] theorem State.setQueue_pmstack (s : State P) (q : QueueNo P) (l : List Word) : (s.setQueue q l).pmstack = s.pmstack := rfl
@[simp] theorem State.setQueue_cause (s : State P) (q : QueueNo P) (l : List Word) : (s.setQueue q l).cause = s.cause := rfl
@[simp] theorem State.setQueue_badaddr (s : State P) (q : QueueNo P) (l : List Word) : (s.setQueue q l).badaddr = s.badaddr := rfl
@[simp] theorem State.setQueue_eip (s : State P) (q : QueueNo P) (l : List Word) : (s.setQueue q l).eip = s.eip := rfl
@[simp] theorem State.setQueue_tvec (s : State P) (q : QueueNo P) (l : List Word) : (s.setQueue q l).tvec = s.tvec := rfl
@[simp] theorem State.setQueue_semaphore (s : State P) (q : QueueNo P) (l : List Word) : (s.setQueue q l).semaphore = s.semaphore := rfl
@[simp] theorem State.setQueue_csr (s : State P) (q : QueueNo P) (l : List Word) : (s.setQueue q l).csr = s.csr := rfl
@[simp] theorem State.setQueue_tlb (s : State P) (q : QueueNo P) (l : List Word) : (s.setQueue q l).tlb = s.tlb := rfl
@[simp] theorem State.setQueue_dcacheEnable (s : State P) (q : QueueNo P) (l : List Word) : (s.setQueue q l).dcacheEnable = s.dcacheEnable := rfl
@[simp] theorem State.setQueue_queues (s : State P) (q : QueueNo P) (l : List Word) : (s.setQueue q l).queues = s.queues.set q l := rfl
@[simp] theorem State.setQueue_coeff (s : State P) (q : QueueNo P) (l : List Word) : (s.setQueue q l).coeff = s.coeff := rfl
@[simp] theorem State.setQueue_plotLog (s : State P) (q : QueueNo P) (l : List Word) : (s.setQueue q l).plotLog = s.plotLog := rfl
@[simp] theorem State.setQueue_mem (s : State P) (q : QueueNo P) (l : List Word) : (s.setQueue q l).mem = s.mem := rfl
@[simp] theorem State.setQueue_imem (s : State P) (q : QueueNo P) (l : List Word) : (s.setQueue q l).imem = s.imem := rfl
@[simp] theorem State.setQueue_mods (s : State P) (q : QueueNo P) (l : List Word) : (s.setQueue q l).mods = s.mods := rfl
@[simp] theorem State.setQueue_waiting (s : State P) (q : QueueNo P) (l : List Word) : (s.setQueue q l).waiting = s.waiting := rfl
@[simp] theorem State.setQueue_irqLines (s : State P) (q : QueueNo P) (l : List Word) : (s.setQueue q l).irqLines = s.irqLines := rfl

@[simp] theorem State.pushQueue_x (s : State) (q : QueueNo) (a : Word) : (s.pushQueue q a).x = s.x := by unfold State.pushQueue; split <;> rfl
@[simp] theorem State.pushQueue_v (s : State) (q : QueueNo) (a : Word) : (s.pushQueue q a).v = s.v := by unfold State.pushQueue; split <;> rfl
@[simp] theorem State.pushQueue_vm (s : State) (q : QueueNo) (a : Word) : (s.pushQueue q a).vm = s.vm := by unfold State.pushQueue; split <;> rfl
@[simp] theorem State.pushQueue_vl (s : State) (q : QueueNo) (a : Word) : (s.pushQueue q a).vl = s.vl := by unfold State.pushQueue; split <;> rfl
@[simp] theorem State.pushQueue_ip (s : State) (q : QueueNo) (a : Word) : (s.pushQueue q a).ip = s.ip := by unfold State.pushQueue; split <;> rfl
@[simp] theorem State.pushQueue_pmstack (s : State) (q : QueueNo) (a : Word) : (s.pushQueue q a).pmstack = s.pmstack := by unfold State.pushQueue; split <;> rfl
@[simp] theorem State.pushQueue_cause (s : State) (q : QueueNo) (a : Word) : (s.pushQueue q a).cause = s.cause := by unfold State.pushQueue; split <;> rfl
@[simp] theorem State.pushQueue_badaddr (s : State) (q : QueueNo) (a : Word) : (s.pushQueue q a).badaddr = s.badaddr := by unfold State.pushQueue; split <;> rfl
@[simp] theorem State.pushQueue_eip (s : State) (q : QueueNo) (a : Word) : (s.pushQueue q a).eip = s.eip := by unfold State.pushQueue; split <;> rfl
@[simp] theorem State.pushQueue_tvec (s : State) (q : QueueNo) (a : Word) : (s.pushQueue q a).tvec = s.tvec := by unfold State.pushQueue; split <;> rfl
@[simp] theorem State.pushQueue_semaphore (s : State) (q : QueueNo) (a : Word) : (s.pushQueue q a).semaphore = s.semaphore := by unfold State.pushQueue; split <;> rfl
@[simp] theorem State.pushQueue_csr (s : State) (q : QueueNo) (a : Word) : (s.pushQueue q a).csr = s.csr := by unfold State.pushQueue; split <;> rfl
@[simp] theorem State.pushQueue_tlb (s : State) (q : QueueNo) (a : Word) : (s.pushQueue q a).tlb = s.tlb := by unfold State.pushQueue; split <;> rfl
@[simp] theorem State.pushQueue_dcacheEnable (s : State) (q : QueueNo) (a : Word) : (s.pushQueue q a).dcacheEnable = s.dcacheEnable := by unfold State.pushQueue; split <;> rfl
@[simp] theorem State.pushQueue_coeff (s : State) (q : QueueNo) (a : Word) : (s.pushQueue q a).coeff = s.coeff := by unfold State.pushQueue; split <;> rfl
@[simp] theorem State.pushQueue_plotLog (s : State) (q : QueueNo) (a : Word) : (s.pushQueue q a).plotLog = s.plotLog := by unfold State.pushQueue; split <;> rfl
@[simp] theorem State.pushQueue_mem (s : State) (q : QueueNo) (a : Word) : (s.pushQueue q a).mem = s.mem := by unfold State.pushQueue; split <;> rfl
@[simp] theorem State.pushQueue_imem (s : State) (q : QueueNo) (a : Word) : (s.pushQueue q a).imem = s.imem := by unfold State.pushQueue; split <;> rfl
@[simp] theorem State.pushQueue_mods (s : State) (q : QueueNo) (a : Word) : (s.pushQueue q a).mods = s.mods := by unfold State.pushQueue; split <;> rfl
@[simp] theorem State.pushQueue_waiting (s : State) (q : QueueNo) (a : Word) : (s.pushQueue q a).waiting = s.waiting := by unfold State.pushQueue; split <;> rfl
@[simp] theorem State.pushQueue_irqLines (s : State) (q : QueueNo) (a : Word) : (s.pushQueue q a).irqLines = s.irqLines := by unfold State.pushQueue; split <;> rfl

@[simp] theorem State.popQueue_x (s : State) (q : QueueNo) : (s.popQueue q).x = s.x := rfl
@[simp] theorem State.popQueue_v (s : State) (q : QueueNo) : (s.popQueue q).v = s.v := rfl
@[simp] theorem State.popQueue_vm (s : State) (q : QueueNo) : (s.popQueue q).vm = s.vm := rfl
@[simp] theorem State.popQueue_vl (s : State) (q : QueueNo) : (s.popQueue q).vl = s.vl := rfl
@[simp] theorem State.popQueue_ip (s : State) (q : QueueNo) : (s.popQueue q).ip = s.ip := rfl
@[simp] theorem State.popQueue_pmstack (s : State) (q : QueueNo) : (s.popQueue q).pmstack = s.pmstack := rfl
@[simp] theorem State.popQueue_cause (s : State) (q : QueueNo) : (s.popQueue q).cause = s.cause := rfl
@[simp] theorem State.popQueue_badaddr (s : State) (q : QueueNo) : (s.popQueue q).badaddr = s.badaddr := rfl
@[simp] theorem State.popQueue_eip (s : State) (q : QueueNo) : (s.popQueue q).eip = s.eip := rfl
@[simp] theorem State.popQueue_tvec (s : State) (q : QueueNo) : (s.popQueue q).tvec = s.tvec := rfl
@[simp] theorem State.popQueue_semaphore (s : State) (q : QueueNo) : (s.popQueue q).semaphore = s.semaphore := rfl
@[simp] theorem State.popQueue_csr (s : State) (q : QueueNo) : (s.popQueue q).csr = s.csr := rfl
@[simp] theorem State.popQueue_tlb (s : State) (q : QueueNo) : (s.popQueue q).tlb = s.tlb := rfl
@[simp] theorem State.popQueue_dcacheEnable (s : State) (q : QueueNo) : (s.popQueue q).dcacheEnable = s.dcacheEnable := rfl
@[simp] theorem State.popQueue_queues (s : State) (q : QueueNo) : (s.popQueue q).queues = s.queues.set q (s.queue q).tail := rfl
@[simp] theorem State.popQueue_coeff (s : State) (q : QueueNo) : (s.popQueue q).coeff = s.coeff := rfl
@[simp] theorem State.popQueue_plotLog (s : State) (q : QueueNo) : (s.popQueue q).plotLog = s.plotLog := rfl
@[simp] theorem State.popQueue_mem (s : State) (q : QueueNo) : (s.popQueue q).mem = s.mem := rfl
@[simp] theorem State.popQueue_imem (s : State) (q : QueueNo) : (s.popQueue q).imem = s.imem := rfl
@[simp] theorem State.popQueue_mods (s : State) (q : QueueNo) : (s.popQueue q).mods = s.mods := rfl
@[simp] theorem State.popQueue_waiting (s : State) (q : QueueNo) : (s.popQueue q).waiting = s.waiting := rfl
@[simp] theorem State.popQueue_irqLines (s : State) (q : QueueNo) : (s.popQueue q).irqLines = s.irqLines := rfl

@[simp] theorem State.unimplemented_x (s : State P) : s.unimplemented.x = s.x := rfl
@[simp] theorem State.unimplemented_v (s : State P) : s.unimplemented.v = s.v := rfl
@[simp] theorem State.unimplemented_vm (s : State P) : s.unimplemented.vm = s.vm := rfl
@[simp] theorem State.unimplemented_vl (s : State P) : s.unimplemented.vl = s.vl := rfl
@[simp] theorem State.unimplemented_ip (s : State P) : s.unimplemented.ip = s.tvecOf .debug := rfl
@[simp] theorem State.unimplemented_pmstack (s : State P) : s.unimplemented.pmstack = s.pmstack <<< 4 ||| 0xa#64 := rfl
@[simp] theorem State.unimplemented_cause (s : State) : s.unimplemented.cause = s.cause.set (Mode.index .debug) (Config.causeUnimp.setWidth 64) := rfl
@[simp] theorem State.unimplemented_badaddr (s : State P) : s.unimplemented.badaddr = s.badaddr := rfl
@[simp] theorem State.unimplemented_eip (s : State P) : s.unimplemented.eip = s.groupAddr := rfl
@[simp] theorem State.unimplemented_tvec (s : State P) : s.unimplemented.tvec = s.tvec := rfl
@[simp] theorem State.unimplemented_semaphore (s : State P) : s.unimplemented.semaphore = s.semaphore := rfl
@[simp] theorem State.unimplemented_csr (s : State P) : s.unimplemented.csr = s.csr := rfl
@[simp] theorem State.unimplemented_tlb (s : State P) : s.unimplemented.tlb = s.tlb := rfl
@[simp] theorem State.unimplemented_dcacheEnable (s : State P) : s.unimplemented.dcacheEnable = s.dcacheEnable := rfl
@[simp] theorem State.unimplemented_queues (s : State P) : s.unimplemented.queues = s.queues := rfl
@[simp] theorem State.unimplemented_coeff (s : State P) : s.unimplemented.coeff = s.coeff := rfl
@[simp] theorem State.unimplemented_plotLog (s : State P) : s.unimplemented.plotLog = s.plotLog := rfl
@[simp] theorem State.unimplemented_mem (s : State P) : s.unimplemented.mem = s.mem := rfl
@[simp] theorem State.unimplemented_imem (s : State P) : s.unimplemented.imem = s.imem := rfl
@[simp] theorem State.unimplemented_mods (s : State P) : s.unimplemented.mods = Mods.none := rfl
@[simp] theorem State.unimplemented_waiting (s : State P) : s.unimplemented.waiting = s.waiting := rfl
@[simp] theorem State.unimplemented_irqLines (s : State P) : s.unimplemented.irqLines = s.irqLines := rfl

/-! ### Registers -/

@[simp] theorem State.readX_zero (s : State P) : s.readX 0#5 = 0#64 := rfl

/-- x0 discards what is written (10 R21). -/
@[simp] theorem State.writeX_zero (s : State P) (a : Word) : s.writeX 0#5 a = s := rfl

theorem State.readX_congr {s t : State P} (h : t.x = s.x) (r : BitVec 5) : t.readX r = s.readX r := by
  unfold State.readX
  rw [h]

theorem State.readX_writeX (s : State P) (r q : BitVec 5) (a : Word) :
    (s.writeX r a).readX q = if q = r ∧ q ≠ 0#5 then a else s.readX q := by
  unfold State.writeX State.readX
  by_cases hr : r = 0#5
  · subst hr
    simp only [if_pos]
    by_cases hq : q = 0#5 <;> simp [hq]
  · by_cases hq : q = 0#5
    · simp [hq]
    · simp only [hr, hq, if_false, ne_eq, not_false_eq_true, and_true]
      rw [Vector.getElem_set]
      simp only [BitVec.toNat_inj, eq_comm]

@[simp] theorem State.readX_writeX_same (s : State P) (r : BitVec 5) (a : Word) (h : r ≠ 0#5) :
    (s.writeX r a).readX r = a := by
  rw [State.readX_writeX, if_pos ⟨rfl, h⟩]

theorem State.readX_writeX_other (s : State P) (r q : BitVec 5) (a : Word) (h : q ≠ r) :
    (s.writeX r a).readX q = s.readX q := by
  rw [State.readX_writeX, if_neg fun e => h e.1]

theorem State.readV_writeV (s : State P) (r q : BitVec 5) (a : VReg P) :
    (s.writeV r a).readV q = if q = r then a else s.readV q := by
  unfold State.writeV State.readV
  rw [Vector.getElem_set]
  simp only [BitVec.toNat_inj, eq_comm]

theorem State.readM_writeM (s : State P) (r q : BitVec 3) (a : Mask P) :
    (s.writeM r a).readM q = if q = r then a else s.readM q := by
  unfold State.writeM State.readM
  rw [Vector.getElem_set]
  simp only [BitVec.toNat_inj, eq_comm]

theorem State.queue_setQueue (s : State P) (q p : QueueNo P) (l : List Word) :
    (s.setQueue q l).queue p = if p = q then l else s.queue p := by
  unfold State.setQueue State.queue
  rw [Fin.getElem_fin, Vector.getElem_set, Fin.getElem_fin]
  simp only [Fin.val_inj, eq_comm]

@[simp] theorem State.readX_writeV (s : State P) (q : BitVec 5) (a : VReg P) (r : BitVec 5) : (s.writeV q a).readX r = s.readX r := rfl
@[simp] theorem State.readX_writeM (s : State P) (q : BitVec 3) (a : Mask P) (r : BitVec 5) : (s.writeM q a).readX r = s.readX r := rfl
@[simp] theorem State.readX_store (s : State P) (a : Word) (n : Nat) (b : Word) (r : BitVec 5) : (s.store a n b).readX r = s.readX r := rfl
@[simp] theorem State.readX_jump (s : State P) (a : Word) (r : BitVec 5) : (s.jump a).readX r = s.readX r := rfl
@[simp] theorem State.readX_finish (s : State P) (r : BitVec 5) : (s.finish).readX r = s.readX r := rfl
@[simp] theorem State.readX_finishShort (s : State P) (r : BitVec 5) : (s.finishShort).readX r = s.readX r := rfl
@[simp] theorem State.readX_setQueue (s : State P) (q : QueueNo P) (l : List Word) (r : BitVec 5) : (s.setQueue q l).readX r = s.readX r := rfl
@[simp] theorem State.readX_csrWrite (s : State) (n : BitVec 16) (a : Word) (r : BitVec 5) : (s.csrWrite n a).readX r = s.readX r := rfl
@[simp] theorem State.readX_raiseExc (s : State P) (c : Word) (r : BitVec 5) : (s.raiseExc c).readX r = s.readX r := rfl
@[simp] theorem State.readX_unimplemented (s : State P) (r : BitVec 5) : (s.unimplemented).readX r = s.readX r := rfl

@[simp] theorem State.readV_writeX (s : State P) (q : BitVec 5) (a : Word) (r : BitVec 5) : (s.writeX q a).readV r = s.readV r := by unfold State.readV; rw [State.writeX_v]
@[simp] theorem State.readV_writeM (s : State P) (q : BitVec 3) (a : Mask P) (r : BitVec 5) : (s.writeM q a).readV r = s.readV r := rfl
@[simp] theorem State.readV_store (s : State P) (a : Word) (n : Nat) (b : Word) (r : BitVec 5) : (s.store a n b).readV r = s.readV r := rfl
@[simp] theorem State.readV_jump (s : State P) (a : Word) (r : BitVec 5) : (s.jump a).readV r = s.readV r := rfl
@[simp] theorem State.readV_finish (s : State P) (r : BitVec 5) : (s.finish).readV r = s.readV r := rfl
@[simp] theorem State.readV_finishShort (s : State P) (r : BitVec 5) : (s.finishShort).readV r = s.readV r := rfl
@[simp] theorem State.readV_setQueue (s : State P) (q : QueueNo P) (l : List Word) (r : BitVec 5) : (s.setQueue q l).readV r = s.readV r := rfl
@[simp] theorem State.readV_csrWrite (s : State) (n : BitVec 16) (a : Word) (r : BitVec 5) : (s.csrWrite n a).readV r = s.readV r := rfl
@[simp] theorem State.readV_raiseExc (s : State P) (c : Word) (r : BitVec 5) : (s.raiseExc c).readV r = s.readV r := rfl
@[simp] theorem State.readV_unimplemented (s : State P) (r : BitVec 5) : (s.unimplemented).readV r = s.readV r := rfl

@[simp] theorem State.readM_writeX (s : State P) (q : BitVec 5) (a : Word) (r : BitVec 3) : (s.writeX q a).readM r = s.readM r := by unfold State.readM; rw [State.writeX_vm]
@[simp] theorem State.readM_writeV (s : State P) (q : BitVec 5) (a : VReg P) (r : BitVec 3) : (s.writeV q a).readM r = s.readM r := rfl
@[simp] theorem State.readM_store (s : State P) (a : Word) (n : Nat) (b : Word) (r : BitVec 3) : (s.store a n b).readM r = s.readM r := rfl
@[simp] theorem State.readM_jump (s : State P) (a : Word) (r : BitVec 3) : (s.jump a).readM r = s.readM r := rfl
@[simp] theorem State.readM_finish (s : State P) (r : BitVec 3) : (s.finish).readM r = s.readM r := rfl
@[simp] theorem State.readM_finishShort (s : State P) (r : BitVec 3) : (s.finishShort).readM r = s.readM r := rfl
@[simp] theorem State.readM_raiseExc (s : State P) (c : Word) (r : BitVec 3) : (s.raiseExc c).readM r = s.readM r := rfl
@[simp] theorem State.readM_unimplemented (s : State P) (r : BitVec 3) : (s.unimplemented).readM r = s.readM r := rfl

end Sys2Proof.Machine
end

