-- ==== Sys2Proof/Laws/Ops.lean ====
section
/-! SUPPORT. What each shared operation answers, said once: the ends of an instruction, the element-wise
operations and the operand formats. -/

namespace Sys2Proof.Machine

/-! ### The ends of an instruction -/

theorem plainOut_eq {v : Bool} {s : State} (h : s.mods.brmod = none) (r : Out) :
    plainOut v s r = if s.modsLegal v then r else .next s.unimplemented := by
  unfold plainOut
  cases hm : s.modsLegal v <;> simp [h]

theorem plain_eq {v : Bool} {s : State} (h : s.mods.brmod = none) (t : State) :
    plain v s t = .next (if s.modsLegal v then t else s.unimplemented) := by
  unfold plain
  rw [plainOut_eq h]
  split <;> rfl

/-- The operands of a modifier are legal under v = 1, whatever they are. -/
@[simp] theorem modsLegal_true (s : State) : s.modsLegal true = true := by
  have h (o : Option OSpec) : optLegal true o = true := by
    cases o with
    | none => rfl
    | some o => cases o <;> rfl
  simp [State.modsLegal, h]

theorem plainOut_next {v : Bool} {s : State} {r : Out} (h : s.mods.brmod = none) (hm : s.modsLegal v = true) :
    plainOut v s r = r := by
  rw [plainOut_eq h, if_pos hm]

theorem plain_next {v : Bool} {s t : State} (h : s.mods.brmod = none) (hm : s.modsLegal v = true) :
    plain v s t = .next t :=
  plainOut_next h hm

theorem plainMask_next {s t : State} (h : s.mods.brmod = none) : plainMask s t = .next t := by
  simp [plainMask, h]

/-- What a modifier in the way raises. -/
theorem plainOut_unimplemented {v : Bool} {s : State} (h : s.mods.brmod.isSome = true ∨ s.modsLegal v = false)
    (r : Out) : plainOut v s r = .next s.unimplemented := by
  unfold plainOut
  rw [if_pos]
  rcases h with h | h <;> simp [h]

theorem shortOut_next {s : State} {r : Out} (h : s.mods.start = none) : shortOut s r = r := by
  simp [shortOut, State.inGroup, h]

theorem short_next {s t : State} (h : s.mods.start = none) : short s t = .next t := shortOut_next h

theorem groupAddr_of_start {s : State} (h : s.mods.start = none) : s.groupAddr = s.ip := by
  simp [State.groupAddr, h]

theorem raises_raiseExc (s : State) (c : Word) : Raises (.next (s.raiseExc c)) s c := rfl

theorem unimplemented_raised (s : State) : Unimplemented (.next s.unimplemented) s := rfl

theorem onlyIp_jump (s : State) (a : Word) : OnlyIp (.next (s.jump a)) s a := rfl

theorem onlyIp_finish (s : State) : OnlyIp (.next s.finish) s (s.ip + 9#64) := rfl

theorem scalarResult_jump (s : State) (r : BitVec 5) (a b : Word) :
    ScalarResult (.next ((s.writeX r a).jump b)) s b r a := by
  refine ⟨_, rfl, rfl, rfl, fun q => ?_, ?_⟩
  · rw [State.readX_jump, State.readX_writeX]
  · unfold State.writeX State.jump
    split <;> rfl

theorem scalarResult_finish (s : State) (r : BitVec 5) (a : Word) :
    ScalarResult (.next (s.writeX r a).finish) s (s.ip + 9#64) r a := by
  have h := scalarResult_jump s r a (s.ip + 9#64)
  rwa [show (s.writeX r a).finish = (s.writeX r a).jump (s.ip + 9#64) by
    unfold State.finish; rw [State.writeX_ip]]

/-- As `scalarResult_finish`, for an instruction that changes more than the register: `t` is the state before
the register is written. -/
theorem scalarResult_finish_of {t : State} {ip : Word} (h : t.ip = ip) (r : BitVec 5) (a : Word) :
    ScalarResult (.next (t.writeX r a).finish) t (ip + 9#64) r a := h ▸ scalarResult_finish t r a

theorem store_writeX (s : State) (r : BitVec 5) (a ea v : Word) (n : Nat) :
    (s.writeX r a).store ea n v = (s.store ea n v).writeX r a := by
  unfold State.writeX
  split <;> rfl

/-- The stack pointer as it reads after it is written. -/
theorem readX_written (s : State) (r : BitVec 5) (a : Word) :
    (s.writeX r a).readX r = if r = 0#5 then 0#64 else a := by
  by_cases h : r = 0#5
  · rw [if_pos h, h]
    rfl
  · rw [if_neg h, State.readX_writeX_same s r a h]

theorem writeX_writeX (s : State) (r : BitVec 5) (a b : Word) : (s.writeX r a).writeX r b = s.writeX r b := by
  unfold State.writeX
  split
  · rfl
  · simp

/-- A register written before another one and again after it holds the last value only. -/
theorem writeX_over (s : State) (r q : BitVec 5) (a b c : Word) :
    ((s.writeX r a).writeX q b).writeX r c = (s.writeX q b).writeX r c := by
  unfold State.writeX
  by_cases hr : r = 0#5
  · simp [hr]
  · by_cases hq : q = 0#5
    · simp [hr, hq]
    · simp only [hr, hq, if_false]
      congr 1
      apply Vector.ext
      intro i hi
      simp only [Vector.getElem_set]
      split
      · rfl
      · rfl

theorem scalarResult_finishShort (s : State) (r : BitVec 5) (a : Word) :
    ScalarResult (.next (s.writeX r a).finishShort) s (s.ip + 5#64) r a := by
  have h := scalarResult_jump s r a (s.ip + 5#64)
  rwa [show (s.writeX r a).finishShort = (s.writeX r a).jump (s.ip + 5#64) by
    unfold State.finishShort; rw [State.writeX_ip]]

theorem vectorResult_jump (s : State) (r : BitVec 5) (a : VReg) (b : Word) :
    VectorResult (.next ((s.writeV r a).jump b)) s b r fun e => a[e] := by
  refine ⟨_, rfl, rfl, rfl, fun q e => ?_, rfl⟩
  rw [State.readV_jump, State.readV_writeV]
  split <;> rfl

theorem vectorResult_finish (s : State) (r : BitVec 5) (a : VReg) :
    VectorResult (.next (s.writeV r a).finish) s (s.ip + 9#64) r fun e => a[e] :=
  vectorResult_jump s r a (s.ip + 9#64)

theorem VectorResult.congr {r : Out} {s : State} {ip : Word} {rt : BitVec 5} {f g : Fin 64 → Word}
    (h : VectorResult r s ip rt f) (e : ∀ k, f k = g k) : VectorResult r s ip rt g := by
  rwa [show g = f from (funext e).symm]

theorem maskResult_finish (s : State) (r : BitVec 3) (a : Mask) :
    MaskResult (.next (s.writeM r a).finish) s (s.ip + 9#64) r a :=
  ⟨_, rfl, rfl, rfl, fun q => by rw [State.readM_finish, State.readM_writeM], rfl⟩

theorem stored_memWrite {m : List Host.Cell} {n : Nat} (a v : Word) (hn : n ≤ 8) (h : Memory.wf m = true) :
    Stored m (memWrite m a n v) a n v :=
  ⟨fun k hk => byteAt_memWrite m a n v k hk (by omega) h, fun b hb => byteAt_memWrite_other m a b n v hb⟩

theorem storeResult_jump {s : State} {n : Nat} (a v b : Word) (hn : n ≤ 8) (h : Memory.wf s.mem = true) :
    StoreResult (.next ((s.store a n v).jump b)) s b a n v :=
  ⟨_, rfl, rfl, rfl, stored_memWrite a v hn h, rfl⟩

/-! ### Element-wise operations -/

@[simp] theorem getElem_merge (s : State) (m : Mask) (z : Bool) (bound : Nat) (old : VReg) (f : Fin 64 → Word)
    (e : Fin 64) : (s.merge m z bound old f)[e] =
      if e.val < bound ∧ e.val < s.vl.toNat then
        if m.getLsbD e.val then f e else if z then 0#64 else old[e]
      else old[e] := by
  simp only [State.merge, Fin.getElem_fin, Vector.getElem_ofFn, Fin.eta]

theorem merge_all (s : State) (m : Mask) (z : Bool) (old : VReg) (f : Fin 64 → Word) (e : Fin 64) :
    (s.merge m z 64 old f)[e] =
      if e.val < s.vl.toNat then if m.getLsbD e.val then f e else if z then 0#64 else old[e] else old[e] := by
  rw [getElem_merge]
  simp only [e.isLt, true_and]

theorem elementwise_rule {s : State} (h : s.mods.brmod = none) (v : Bool) (t : RSpec) (legal : Bool)
    (mz : Mask × Bool) (f : Fin 64 → Word) :
    ElementRule (elementwise v t legal mz f s) s v t legal mz f := by
  unfold elementwise ElementRule
  rw [plain_eq h]
  cases s.modsLegal v
  · rw [Bool.and_false]
    rfl
  rw [Bool.and_true]
  cases legal
  · rfl
  · cases v <;> cases t
    · exact scalarResult_finish s _ _
    · rfl
    · rfl
    · exact (vectorResult_finish s _ _).congr fun e => merge_all s _ _ _ _ e

theorem active_iff (s : State) (m : Mask) (e : Fin 64) :
    s.active m e = true ↔ e.val < s.vl.toNat ∧ m.getLsbD e.val = true := by
  simp [State.active]

theorem firstFail_none {s : State} {m : Mask} {fail : Fin 64 → Option (BitVec 8)}
    (h : ∀ e : Fin 64, e.val < s.vl.toNat → m.getLsbD e.val = true → fail e = none) :
    s.firstFail m fail = none := by
  unfold State.firstFail
  rw [List.findSome?_eq_none_iff]
  intro e _
  split
  · rename_i ha
    rw [active_iff] at ha
    rw [h e ha.1 ha.2]; rfl
  · rfl

theorem firstFail_some {s : State} {m : Mask} {fail : Fin 64 → Option (BitVec 8)} {e : Fin 64} {c : BitVec 8}
    (hv : e.val < s.vl.toNat) (hm : m.getLsbD e.val = true) (hc : fail e = some c)
    (h : ∀ k : Fin 64, k.val < e.val → m.getLsbD k.val = true → fail k = none) :
    s.firstFail m fail = some (e, c) := by
  unfold State.firstFail
  rw [List.findSome?_eq_some_iff]
  obtain ⟨l1, l2, hl⟩ := List.append_of_mem (List.mem_finRange e)
  refine ⟨l1, e, l2, hl, ?_, fun k hk => ?_⟩
  · rw [if_pos ((active_iff s m e).2 ⟨hv, hm⟩), hc]; rfl
  · have hs : (l1 ++ e :: l2).Pairwise (· < ·) := hl ▸ List.pairwise_lt_finRange 64
    rw [List.pairwise_append] at hs
    have hlt : k.val < e.val := hs.2.2 k hk e List.mem_cons_self
    split
    · rename_i ha
      rw [active_iff] at ha
      rw [h k hlt ha.2]; rfl
    · rfl

theorem elementwiseTrap_rule {s : State} (h : s.mods.brmod = none) (v : Bool) (t : RSpec) (legal : Bool)
    (mz : Mask × Bool) (trap : Fin 64 → Option (BitVec 8)) (f : Fin 64 → Word) :
    TrapRule (elementwiseTrap v t legal mz trap f s) s v t legal mz trap f := by
  unfold elementwiseTrap TrapRule
  rw [plain_eq h]
  cases s.modsLegal v
  · rw [Bool.and_false]
    exact unimplemented_raised s
  rw [Bool.and_true]
  cases legal
  · exact unimplemented_raised s
  · cases v <;> cases t
    · dsimp only
      constructor
      · intro ht
        rw [ht]
        exact scalarResult_finish s _ _
      · intro c ht
        rw [ht]
        rfl
    · rfl
    · rfl
    · rename_i rt
      dsimp only
      constructor
      · intro hn
        rw [firstFail_none hn]
        exact (vectorResult_finish s rt _).congr fun e => merge_all s _ _ _ _ e
      · intro e c hv hm hc hlow
        rw [firstFail_some hv hm hc hlow]
        refine ⟨_, fun k => ?_, raises_raiseExc _ _⟩
        rw [getElem_merge]
        by_cases hk : k.val < e.val
        · rw [if_pos ⟨hk, by omega⟩, if_pos hk]
        · rw [if_neg (fun h => hk h.1), if_neg hk]

theorem ElementRule.congr {r : Out} {s : State} {v : Bool} {t : RSpec} {legal : Bool} {mz : Mask × Bool}
    {f g : Fin 64 → Word} (h : ElementRule r s v t legal mz f) (e : ∀ k, f k = g k) :
    ElementRule r s v t legal mz g := by
  rwa [show g = f from (funext e).symm]

theorem opR1_rule {s : State} (h : s.mods.brmod = none) (v : Bool) (o : R1) (f : Word → Word) :
    ElementRule (opR1 v o f s) s v o.t (o.a.legal v) (s.readM o.m, o.z) fun e => f (o.a.value s e) :=
  elementwise_rule h _ _ _ _ _

theorem opR2_rule {s : State} (h : s.mods.brmod = none) (ext : BitVec 6 → Word) (v : Bool) (o : R2)
    (f : Word → Word → Word) :
    ElementRule (opR2 ext v o f s) s v o.t (o.a.legal v && o.b.legal v) s.imodMask fun e =>
      f (o.a.value s e) (o.b.value ext s e) :=
  elementwise_rule h _ _ _ _ _

theorem opR2I_rule {s : State} (h : s.mods.brmod = none) (v : Bool) (o : R2I) (f : Word → Word → Word) :
    ElementRule (opR2I v o f s) s v o.t (o.a.legal v) s.imodMask fun e => f (o.a.value s e) (zext6 o.imm) :=
  elementwise_rule h _ _ _ _ _

theorem opRI_rule {s : State} (h : s.mods.brmod = none) (k : ImmExt) (v : Bool) (o : RI)
    (f : Word → Word → Word) :
    ElementRule (opRI k v o f s) s v o.t (o.a.legal v) s.imodMask fun e => f (o.a.value s e) (s.imm16 k o.imm) :=
  elementwise_rule h _ _ _ _ _

theorem opR3_rule {s : State} (h : s.mods.brmod = none) (ext extC : BitVec 6 → Word) (v : Bool) (o : R2)
    (f : Word → Word → Word → Word) :
    ElementRule (opR3 ext extC v o f s) s v o.t (o.a.legal v && o.b.legal v) s.imodMask
      fun e => f (o.a.value s e) (o.b.value ext s e) (optValue extC s e s.specC) :=
  elementwise_rule h _ _ _ _ _

theorem opR4_rule {s : State} (h : s.mods.brmod = none) (ext extC extD : BitVec 6 → Word) (v : Bool) (o : R2)
    (f : Word → Word → Word → Word → Word) :
    ElementRule (opR4 ext extC extD v o f s) s v o.t (o.a.legal v && o.b.legal v) s.imodMask fun e =>
      f (o.a.value s e) (o.b.value ext s e) (optValue extC s e s.specC) (optValue extD s e s.specD) :=
  elementwise_rule h _ _ _ _ _

/-! ### Sources -/

/-- A legal source of a scalar instruction has the value `scalarSource` gives, and only that has one. -/
theorem scalarSource_eq (ext : BitVec 6 → Word) (s : State) (b : OSpec) (e : Fin 64) :
    scalarSource ext s b = if b.legal false then some (b.value ext s e) else none := by
  cases b <;> rfl

theorem getLsbD_extract_one (a : BitVec 2) (k : Nat) (hk : k < 2) :
    (a.extractLsb' k 1 = 1#1) = (a.getLsbD k = true) := by
  rw [eq_iff_iff]
  interval_cases k <;> revert a <;> decide

/-! ### CHK -/

theorem inBounds_iff (cn : BitVec 2) (lo a hi : Word) : inBounds cn lo a hi = true ↔
    (if cn.getLsbD 0 then lo.toInt < a.toInt else lo.toInt ≤ a.toInt) ∧
      (if cn.getLsbD 1 then a.toInt < hi.toInt else a.toInt ≤ hi.toInt) := by
  unfold inBounds
  simp only [getLsbD_extract_one _ _ (show 1 < 2 by decide), getLsbD_extract_one _ _ (show 0 < 2 by decide)]
  cases cn.getLsbD 0 <;> cases cn.getLsbD 1 <;> simp [ltS]

theorem checkBounds_rule (s : State) (h : s.mods.brmod = none) (v legal full : Bool)
    (hf : full = (legal && s.modsLegal v)) (ok : Fin 64 → Bool) (inside : Fin 64 → Prop)
    (hok : ∀ e, ok e = true ↔ inside e) :
    let all : Prop := if v then ∀ e : Fin 64, e.val < s.vl.toNat → s.imodMask.1.getLsbD e.val = true → inside e
        else inside 0
    (full = true → all → OnlyIp (checkBounds v legal ok s) s (s.ip + 9#64)) ∧
      (full = true → ¬all → Raises (checkBounds v legal ok s) s (Config.causeChk.setWidth 64)) ∧
      (full = false → Unimplemented (checkBounds v legal ok s) s) := by
  unfold checkBounds
  have hc (t : State) : (if s.modsLegal v then if legal = true then t else s.unimplemented else s.unimplemented) =
      if full = true then t else s.unimplemented := by
    rw [hf]
    cases legal <;> cases s.modsLegal v <;> rfl
  rw [plain_eq h, hc]
  dsimp only
  have hall : ((List.finRange 64).all fun e => !s.active s.imodMask.1 e || ok e) = true ↔
      ∀ e : Fin 64, e.val < s.vl.toNat → s.imodMask.1.getLsbD e.val = true → inside e := by
    rw [List.all_eq_true]
    constructor
    · intro hh e h1 h2
      have := hh e (List.mem_finRange e)
      rw [(active_iff s _ e).2 ⟨h1, h2⟩] at this
      exact (hok e).1 (by simpa using this)
    · intro hh e _
      cases ha : s.active s.imodMask.1 e
      · rfl
      · rw [active_iff] at ha
        simpa using (hok e).2 (hh e ha.1 ha.2)
  refine ⟨fun hl => ?_, fun hl => ?_, fun hl => ?_⟩
  · subst hl
    intro ha
    cases v
    · simp only [if_true, Bool.false_eq_true, if_false] at ha ⊢
      rw [if_pos ((hok Config.default.first).2 ha)]
      exact onlyIp_finish s
    · simp only [if_true] at ha ⊢
      rw [if_pos (hall.2 ha)]
      exact onlyIp_finish s
  · subst hl
    intro ha
    cases v
    · simp only [if_true, Bool.false_eq_true, if_false] at ha ⊢
      rw [if_neg (fun e => ha ((hok Config.default.first).1 e))]
      exact raises_raiseExc s _
    · simp only [if_true] at ha ⊢
      rw [if_neg (fun e => ha (hall.1 e))]
      exact raises_raiseExc s _
  · subst hl
    exact unimplemented_raised s

end Sys2Proof.Machine
end

