-- ==== Sys2Proof/Laws/MemoryOps.lean ====
section
/-! SUPPORT. What the shared loads and stores answer, the card marks of STPTR, and register lists. -/

namespace Sys2Proof.Machine

/-! ### Addresses and loaded values -/

theorem eaIndex_eq (base index : Word) (sc : BitVec 3) :
    eaIndex base index sc = base + index * BitVec.ofNat 64 (2 ^ sc.toNat) := by
  unfold eaIndex
  congr 1
  apply BitVec.eq_of_toNat_eq
  rw [BitVec.toNat_shiftLeft, BitVec.toNat_mul, BitVec.toNat_ofNat, Nat.shiftLeft_eq, Nat.mul_mod_mod]

theorem scaleEight (k : Word) : k <<< 3 = k * 8#64 := by
  apply BitVec.eq_of_toNat_eq
  rw [BitVec.toNat_shiftLeft, BitVec.toNat_mul, Nat.shiftLeft_eq]
  rfl

theorem loadDisp_result {s : State} (h : s.scalarReady) (signed : Bool) (n : Nat) (o : LdD) :
    match o.a, o.t with
    | .x ra, .x rt => ScalarResult (loadDisp signed n o s) s (s.ip + 9#64) rt
        (loadExt signed n (memRead s.mem (s.readX ra + s.displacement o.disp) n))
    | _, _ => Unimplemented (loadDisp signed n o s) s := by
  unfold loadDisp
  rw [plainOut_next h.1 h.2]
  simp only [accessing_eq]
  cases o.a <;> cases o.t
  · exact scalarResult_finish s _ _
  all_goals exact unimplemented_raised s

theorem loadIndexed_result {s : State} (h : s.scalarReady) (signed : Bool) (n : Nat) (o : LdX) :
    match o.a, o.t, scalarSource (·.signExtend 64) s o.b with
    | .x ra, .x rt, some b => ScalarResult (loadIndexed signed n o s) s (s.ip + 9#64) rt
        (loadExt signed n (memRead s.mem (s.readX ra + b * BitVec.ofNat 64 (2 ^ o.sc.toNat)) n))
    | _, _, _ => Unimplemented (loadIndexed signed n o s) s := by
  unfold loadIndexed
  rw [plainOut_next h.1 h.2, scalarSource_eq _ s o.b 0]
  simp only [accessing_eq]
  cases o.a with
  | v ra => exact unimplemented_raised s
  | x ra =>
  cases o.t with
  | v rt => exact unimplemented_raised s
  | x rt =>
  cases o.b.legal false
  · exact unimplemented_raised s
  · simp only [if_true]
    rw [← eaIndex_eq]
    exact scalarResult_finish s _ _

/-- What a store instruction answers, for any way of storing: `P` of the outcome, the address and the value. -/
theorem storeDisp_result {s : State} (h : s.scalarReady) (put : Put) (o : StD)
    {P : Out → Word → Word → Prop} (hp : ∀ ea b, P (.next (put.run ea b s).finish) ea b) :
    match o.a, scalarSource (·.setWidth 64) s o.b with
    | .x ra, some b => P (storeDisp put o s) (s.readX ra + s.displacement o.disp) b
    | _, _ => Unimplemented (storeDisp put o s) s := by
  unfold storeDisp
  rw [plainOut_next h.1 h.2, scalarSource_eq _ s o.b 0]
  simp only [accessing_eq]
  cases o.a with
  | v ra => exact unimplemented_raised s
  | x ra =>
  cases o.b.legal false
  · exact unimplemented_raised s
  · exact hp _ _

/-! ### Card marks -/

theorem byteAt_memWrite_one (m : List Host.Cell) (a b : Word) (h : Memory.wf m = true) :
    byteAt (memWrite m a 1 0#64) b = if b = a then 0#8 else byteAt m b := by
  split
  · rename_i hb
    subst hb
    have := byteAt_memWrite m b 1 0#64 0 (by decide) (by decide) h
    simpa using this
  · rename_i hb
    refine byteAt_memWrite_other m a b 1 0#64 fun j hj => ?_
    obtain rfl : j = 0 := by omega
    simpa using hb

/-- Memory after the zero bytes of STPTR. -/
def cardBytes (m : List Host.Cell) (ea : Word) (fuel : Nat) : List Host.Cell :=
  match fuel with
  | 0 => m
  | k + 1 => if ea = 0#64 then m else cardBytes (memWrite m (ea >>> 8) 1 0#64) (ea >>> 8) k

/-- They change memory only. -/
theorem cardMarks_eq (u s : State) (ea : Word) (k : Nat) :
    cardMarks u s ea k = { s with mem := cardBytes s.mem ea k } := by
  induction k generalizing s ea with
  | zero => rfl
  | succ k ih =>
    unfold cardMarks cardBytes
    split
    · rfl
    · rw [ih]; rfl

theorem putPointer_eq (ea b : Word) (s : State) :
    putPointer.run ea b s = { s with mem := cardBytes (memWrite s.mem ea 8 b) ea 8 } := cardMarks_eq _ _ _ _

theorem byteAt_cardBytes (m : List Host.Cell) (ea : Word) (k : Nat) (h : Memory.wf m = true) (a : Word) :
    ((∃ j, 1 ≤ j ∧ j ≤ k ∧ ea >>> (8 * (j - 1)) ≠ 0#64 ∧ a = ea >>> (8 * j)) →
      byteAt (cardBytes m ea k) a = 0#8) ∧
    ((¬∃ j, 1 ≤ j ∧ j ≤ k ∧ ea >>> (8 * (j - 1)) ≠ 0#64 ∧ a = ea >>> (8 * j)) →
      byteAt (cardBytes m ea k) a = byteAt m a) := by
  induction k generalizing m ea with
  | zero =>
    refine ⟨?_, fun _ => rfl⟩
    rintro ⟨j, h1, h2, _⟩
    omega
  | succ k ih =>
    rw [cardBytes]
    by_cases h0 : ea = 0#64
    · rw [if_pos h0]
      refine ⟨?_, fun _ => rfl⟩
      rintro ⟨j, _, _, hj, _⟩
      exact absurd (by rw [h0]; simp) hj
    · rw [if_neg h0]
      obtain ⟨ih1, ih2⟩ := ih (memWrite m (ea >>> 8) 1 0#64) (ea >>> 8) (memWrite_wf m _ _ _ h)
      have sh (n : Nat) : (ea >>> 8) >>> n = ea >>> (8 + n) := by rw [BitVec.shiftRight_add]
      by_cases hr : ∃ j, 1 ≤ j ∧ j ≤ k ∧ (ea >>> 8) >>> (8 * (j - 1)) ≠ 0#64 ∧ a = (ea >>> 8) >>> (8 * j)
      · refine ⟨fun _ => ih1 hr, fun hn => absurd ?_ hn⟩
        obtain ⟨j, h1, h2, h3, h4⟩ := hr
        rw [sh] at h3 h4
        refine ⟨j + 1, by omega, by omega, ?_, ?_⟩
        · rwa [show 8 * (j + 1 - 1) = 8 + 8 * (j - 1) by omega]
        · rwa [show 8 * (j + 1) = 8 + 8 * j by omega]
      · rw [ih2 hr, byteAt_memWrite_one m _ _ h]
        by_cases ha : a = ea >>> 8
        · rw [if_pos ha]
          refine ⟨fun _ => rfl, fun hn => absurd ⟨1, le_refl _, by omega, by simpa using h0, ha⟩ hn⟩
        · rw [if_neg ha]
          refine ⟨fun ⟨j, h1, h2, h3, h4⟩ => absurd ?_ hr, fun _ => rfl⟩
          rcases h1.eq_or_lt with rfl | h1
          · exact absurd h4 ha
          · refine ⟨j - 1, by omega, by omega, ?_, ?_⟩
            · rw [sh]
              rwa [show 8 + 8 * (j - 1 - 1) = 8 * (j - 1) by omega]
            · rw [sh]
              rwa [show 8 + 8 * (j - 1) = 8 * j by omega]

theorem cardBytes_wf (m : List Host.Cell) (ea : Word) (k : Nat) (h : Memory.wf m = true) :
    Memory.wf (cardBytes m ea k) = true := by
  induction k generalizing m ea with
  | zero => exact h
  | succ k ih =>
    rw [cardBytes]
    split
    · exact h
    · exact ih _ _ (memWrite_wf m _ _ _ h)

/-! ### Register lists -/

/-- A fold of stores changes memory only. -/
theorem foldl_store {α : Type} (n : Nat) (f g : α → Word) (l : List α) (s : State) :
    l.foldl (fun t p => t.store (f p) n (g p)) s =
      { s with mem := l.foldl (fun m p => memWrite m (f p) n (g p)) s.mem } := by
  induction l generalizing s with
  | nil => rfl
  | cons p r ih => rw [List.foldl_cons, ih]; rfl

theorem foldl_memWrite_wf {α : Type} (n : Nat) (f g : α → Word) (l : List α) (m : List Host.Cell)
    (h : Memory.wf m = true) : Memory.wf (l.foldl (fun m p => memWrite m (f p) n (g p)) m) = true := by
  induction l generalizing m with
  | nil => exact h
  | cons p r ih => exact ih _ (memWrite_wf m _ _ _ h)

/-- Octas stored one after the other from `ea + 8k` on: the bytes below are kept, and so is everything
beyond. -/
theorem foldl_octas {α : Type} (ea : Word) (g : α → Word) (l : List α) (k : Nat) (m : List Host.Cell)
    (h : Memory.wf m = true) (hk : 8 * (k + l.length) < 2 ^ 64) :
    (∀ i (hi : i < l.length) j, j < 8 →
      byteAt ((l.zipIdx k).foldl (fun m p => memWrite m (ea + BitVec.ofNat 64 (8 * p.2)) 8 (g p.1)) m)
        (ea + BitVec.ofNat 64 (8 * (k + i) + j)) = (g l[i]).extractLsb' (8 * j) 8) ∧
    ∀ a, (∀ j, 8 * k ≤ j → j < 8 * (k + l.length) → a ≠ ea + BitVec.ofNat 64 j) →
      byteAt ((l.zipIdx k).foldl (fun m p => memWrite m (ea + BitVec.ofNat 64 (8 * p.2)) 8 (g p.1)) m) a =
        byteAt m a := by
  induction l generalizing k m with
  | nil => exact ⟨fun i hi => absurd hi (by simp), fun _ _ => rfl⟩
  | cons p r ih =>
    rw [List.zipIdx_cons, List.foldl_cons]
    have hlen : (p :: r).length = r.length + 1 := List.length_cons
    rw [hlen] at hk
    obtain ⟨ih1, ih2⟩ := ih (k + 1) (memWrite m (ea + BitVec.ofNat 64 (8 * k)) 8 (g p)) (memWrite_wf m _ _ _ h)
      (by omega)
    have off (j : Nat) : ea + BitVec.ofNat 64 (8 * k) + BitVec.ofNat 64 j = ea + BitVec.ofNat 64 (8 * k + j) := by
      rw [BitVec.add_assoc, BitVec.ofNat_add]
    constructor
    · intro i hi j hj
      cases i with
      | succ i =>
        rw [show k + (i + 1) = k + 1 + i by omega]
        exact ih1 i (by simpa using hi) j hj
      | zero =>
        rw [ih2 _ fun j' h1 h2 => ?_]
        · rw [Nat.add_zero, ← off]
          exact byteAt_memWrite m _ 8 _ j hj (by decide) h
        · intro he
          have := add_ofNat_inj ea _ _ (by omega) (by omega) he
          omega
    · intro a ha
      rw [hlen] at ha
      rw [ih2 a fun j h1 h2 => ha j (by omega) (by omega)]
      refine byteAt_memWrite_other m _ a 8 _ fun j hj => ?_
      rw [off]
      exact ha _ (by omega) (by omega)

/-- Registers loaded one after the other: each of a list without repeats holds its octa, the others are
kept. -/
theorem foldl_writeX (val : Nat → Word) (l : List (BitVec 5)) (k : Nat) (s : State) (hn : l.Nodup)
    (h0 : 0#5 ∉ l) :
    (∀ i (hi : i < l.length), ((l.zipIdx k).foldl (fun t p => t.writeX p.1 (val p.2)) s).readX l[i] = val (k + i)) ∧
    (∀ q, q ∉ l → ((l.zipIdx k).foldl (fun t p => t.writeX p.1 (val p.2)) s).readX q = s.readX q) ∧
    (l.zipIdx k).foldl (fun t p => t.writeX p.1 (val p.2)) s =
      { s with x := ((l.zipIdx k).foldl (fun t p => t.writeX p.1 (val p.2)) s).x } := by
  induction l generalizing k s with
  | nil => exact ⟨fun i hi => absurd hi (by simp), fun _ _ => rfl, rfl⟩
  | cons p r ih =>
    rw [List.zipIdx_cons, List.foldl_cons]
    rw [List.nodup_cons] at hn
    rw [List.mem_cons, not_or] at h0
    obtain ⟨ih1, ih2, ih3⟩ := ih (k + 1) (s.writeX p (val k)) hn.2 h0.2
    refine ⟨fun i hi => ?_, fun q hq => ?_, ?_⟩
    · cases i with
      | succ i =>
        rw [show k + (i + 1) = k + 1 + i by omega]
        exact ih1 i (by simpa using hi)
      | zero =>
        rw [List.getElem_cons_zero, ih2 p hn.1, State.readX_writeX_same s p _ (Ne.symm h0.1)]
        rfl
    · rw [List.mem_cons, not_or] at hq
      rw [ih2 q hq.2, State.readX_writeX_other s p q _ hq.1]
    · rw [ih3]
      unfold State.writeX
      split <;> rfl

theorem ofNat5_inj {i j : Nat} (hi : i < 31) (hj : j < 31) (h : BitVec.ofNat 5 (i + 1) = BitVec.ofNat 5 (j + 1)) :
    i = j := by
  have := congrArg BitVec.toNat h
  simp only [BitVec.toNat_ofNat] at this
  omega

/-- The listed registers, as a filtered range. -/
theorem listed_eq (s : State) :
    s.listed = ((List.range 30).filter (s.mods.reglist.getD 0#30).getLsbD).map fun k => BitVec.ofNat 5 (k + 1) := by
  unfold State.listed
  cases s.mods.reglist with
  | none =>
    have : (List.range 30).filter ((none : Option (BitVec 30)).getD 0#30).getLsbD = [] := by decide
    rw [this]; rfl
  | some l =>
    dsimp only [Option.getD]
    generalize List.range 30 = r
    induction r with
    | nil => rfl
    | cons k r ih => cases hk : l.getLsbD k <;> simp [hk, ih]

theorem listed_length (s : State) :
    s.listed.length = ((List.range 30).filter (s.mods.reglist.getD 0#30).getLsbD).length := by
  rw [listed_eq, List.length_map]

theorem listed_length_le (s : State) : s.listed.length ≤ 30 := by
  rw [listed_length]
  exact (List.length_filter_le _ _).trans (by simp)

theorem listed_nodup (s : State) : s.listed.Nodup := by
  rw [listed_eq]
  refine List.Nodup.map_on ?_ (List.nodup_range.filter _)
  intro i hi j hj h
  have hi := List.mem_range.1 (List.mem_filter.1 hi).1
  have hj := List.mem_range.1 (List.mem_filter.1 hj).1
  exact ofNat5_inj (by omega) (by omega) h

theorem mem_listed (s : State) (q : BitVec 5) :
    q ∈ s.listed ↔ q ≠ 0#5 ∧ (s.mods.reglist.getD 0#30).getLsbD (q.toNat - 1) = true := by
  rw [listed_eq, List.mem_map]
  constructor
  · rintro ⟨k, hk, rfl⟩
    rw [List.mem_filter, List.mem_range] at hk
    have hn : (BitVec.ofNat 5 (k + 1)).toNat = k + 1 := by
      rw [BitVec.toNat_ofNat, Nat.mod_eq_of_lt (by omega)]
    rw [hn]
    refine ⟨fun h => ?_, hk.2⟩
    have := congrArg BitVec.toNat h
    rw [hn] at this
    simp at this
  · rintro ⟨h0, hb⟩
    have hq : q.toNat ≠ 0 := fun h => h0 (BitVec.eq_of_toNat_eq (by simpa using h))
    refine ⟨q.toNat - 1, List.mem_filter.2 ⟨List.mem_range.2 ?_, hb⟩, ?_⟩
    · by_contra hc
      rw [BitVec.getLsbD_of_ge _ _ (by omega)] at hb
      cases hb
    · rw [show q.toNat - 1 + 1 = q.toNat by omega]
      simp

/-- A listed register stands behind the listed registers below it. -/
theorem listed_index (s : State) (q : BitVec 5) (h : q ∈ s.listed) :
    s.listed[((List.range (q.toNat - 1)).filter (s.mods.reglist.getD 0#30).getLsbD).length]? = some q := by
  rw [mem_listed] at h
  obtain ⟨h0, hb⟩ := h
  have hq : q.toNat ≠ 0 := fun h => h0 (BitVec.eq_of_toNat_eq (by simpa using h))
  have hlt : q.toNat - 1 < 30 := by
    by_contra hc
    rw [BitVec.getLsbD_of_ge _ _ (by omega)] at hb
    cases hb
  rw [listed_eq, List.getElem?_map]
  have hr : List.range 30 = List.range (q.toNat - 1) ++
      (q.toNat - 1) :: (List.range (30 - q.toNat)).map (q.toNat + ·) := by
    have h1 : 30 = (q.toNat - 1) + (30 - q.toNat + 1) := by omega
    conv_lhs => rw [h1]
    rw [List.range_add, List.range_succ_eq_map, List.map_cons, List.map_map]
    congr 1
    congr 1
    apply List.map_congr_left
    intro a _
    simp only [Function.comp]
    omega
  rw [hr, List.filter_append, List.filter_cons, if_pos hb,
    List.getElem?_append_right (le_refl _), Nat.sub_self, List.getElem?_cons_zero]
  simp only [Option.map_some, Option.some.injEq]
  rw [show q.toNat - 1 + 1 = q.toNat by omega]
  simp

/-! ### Instruction cache -/

theorem refreshLine_wf (mem imem : List Host.Cell) (base n : Nat) (hb : base + n ≤ 2 ^ 64)
    (hi : Memory.wf imem = true) : Memory.wf (refreshLine mem imem base n) = true := by
  induction n with
  | zero => exact hi
  | succ n ih => exact sparseSet_wf _ _ _ _ _ (ih (by omega)) (by omega) (by omega)

theorem get_refreshLine (mem imem : List Host.Cell) (base n a : Nat) (hb : base + n ≤ 2 ^ 64)
    (hi : Memory.wf imem = true) : sparseGet (refreshLine mem imem base n) a =
      if base ≤ a ∧ a < base + n then sparseGet mem a else sparseGet imem a := by
  induction n with
  | zero =>
    rw [if_neg (by omega)]
    rfl
  | succ n ih =>
    rw [refreshLine, sparseGet_set _ 0 (2 ^ 64) _ _ _ (refreshLine_wf mem imem base n (by omega) hi), ih (by omega)]
    by_cases h : a = base + n
    · rw [if_pos h, if_pos (by omega), h]
    · rw [if_neg h]
      by_cases h2 : base ≤ a ∧ a < base + n
      · rw [if_pos h2, if_pos (by omega)]
      · rw [if_neg h2, if_neg (by omega)]

theorem cacheData_eq (dc : BitVec 3) (t : State) : cacheData dc t =
    { t with dcacheEnable := if dc = 1#3 then true else if dc = 2#3 then false else t.dcacheEnable } := by
  unfold cacheData
  have : dc = 0#3 ∨ dc = 1#3 ∨ dc = 2#3 ∨ dc = 3#3 ∨ dc = 4#3 ∨ dc = 5#3 ∨ dc = 6#3 ∨ dc = 7#3 := by
    revert dc
    decide
  rcases this with rfl | rfl | rfl | rfl | rfl | rfl | rfl | rfl <;> rfl

/-- The fetch view after an instruction-cache command. -/
def refreshed (ic : BitVec 2) (ea : Word) (s : State) : List Host.Cell :=
  if ic = 1#2 then refreshLine s.mem s.imem (ea.toNat - ea.toNat % 64) 64
  else if ic = 2#2 then s.mem else s.imem

theorem cacheInstr_eq (ic : BitVec 2) (ea : Word) (s : State) :
    cacheInstr ic ea s = { s with imem := refreshed ic ea s } := by
  have : ic = 0#2 ∨ ic = 1#2 ∨ ic = 2#2 ∨ ic = 3#2 := by
    revert ic
    decide
  unfold refreshed cacheInstr
  rcases this with rfl | rfl | rfl | rfl
  · rfl
  · rw [if_pos rfl]; rfl
  · rfl
  · rfl

theorem byteAt_refreshed (ic : BitVec 2) (ea : Word) (s : State) (hi : Memory.wf s.imem = true) (a : Word) :
    byteAt (refreshed ic ea s) a =
      if ic = 2#2 ∨ (ic = 1#2 ∧ a.toNat / 64 = ea.toNat / 64) then byteAt s.mem a else byteAt s.imem a := by
  have line : ea.toNat - ea.toNat % 64 + 64 ≤ 2 ^ 64 := by
    have := ea.isLt
    omega
  unfold refreshed byteAt
  by_cases h1 : ic = 1#2
  · subst h1
    rw [if_pos rfl, get_refreshLine _ _ _ _ _ line hi]
    have : (ea.toNat - ea.toNat % 64 ≤ a.toNat ∧ a.toNat < ea.toNat - ea.toNat % 64 + 64) ↔
        (1#2 = 2#2 ∨ 1#2 = 1#2 ∧ a.toNat / 64 = ea.toNat / 64) := by
      simp
      omega
    simp only [this]
  · by_cases h2 : ic = 2#2
    · simp [h2]
    · simp [h1, h2]

theorem refreshed_wf (ic : BitVec 2) (ea : Word) (s : State) (hm : Memory.wf s.mem = true)
    (hi : Memory.wf s.imem = true) : Memory.wf (refreshed ic ea s) = true := by
  have line : ea.toNat - ea.toNat % 64 + 64 ≤ 2 ^ 64 := by
    have := ea.isLt
    omega
  unfold refreshed
  split
  · exact refreshLine_wf _ _ _ _ line hi
  · split
    · exact hm
    · exact hi

end Sys2Proof.Machine
end

