-- ==== Sys2Proof/Laws/Vector.lean ====
section
/-! SUPPORT. What the shared mask and vector operations answer. -/

namespace Sys2Proof.Machine

/-! ### Masks -/

theorem opMask_result {s : State} (h : s.mods.brmod = none) (o : MaskRRR) (f : Mask → Mask → Mask) :
    MaskResult (opMask o f s) s (s.ip + 9#64) o.t (f (s.readM o.a) (s.readM o.b)) := by
  unfold opMask
  rw [plainMask_next h]
  exact maskResult_finish s _ _

theorem opFromMask_result {s : State} (h : s.mods.brmod = none) (rt : BitVec 5) (a : Word) :
    ScalarResult (opFromMask 0#2 rt a s) s (s.ip + 9#64) rt a := by
  unfold opFromMask
  rw [plainMask_next h, if_pos rfl]
  exact scalarResult_finish s _ _

theorem opFromMask_other {s : State} (h : s.mods.brmod = none) {tt : BitVec 2} (ht : tt ≠ 0#2) (rt : BitVec 5)
    (a : Word) : Unimplemented (opFromMask tt rt a s) s := by
  unfold opFromMask
  rw [plainMask_next h, if_neg ht]
  exact unimplemented_raised s

theorem getLsbD_fillMask (a : Word) (k : Nat) (hk : k < 64) :
    (fillMask a : Mask).getLsbD k = decide (k < a.toNat) := by
  unfold fillMask
  rw [getLsbD_lowMask _ _ (min_le_right _ _)]
  rw [decide_eq_decide, lt_min_iff]
  exact and_iff_left hk

theorem firstBit_zero : firstBit 0#64 = 128#64 := by decide

theorem firstBit_eq {m : Mask} (h : m ≠ 0#64) :
    ∃ k < 64, firstBit m = BitVec.ofNat 64 k ∧ m.getLsbD k = true ∧ ∀ j < k, m.getLsbD j = false := by
  unfold firstBit
  cases hf : (List.range 64).find? m.getLsbD with
  | none =>
    exfalso
    rw [List.find?_eq_none] at hf
    apply h
    apply BitVec.eq_of_getLsbD_eq
    intro i hi
    simpa using hf i (List.mem_range.2 hi)
  | some k =>
    rw [List.find?_range_eq_some] at hf
    exact ⟨k, List.mem_range.1 hf.2.1, rfl, hf.1, fun j hj => by simpa using hf.2.2 j hj⟩

theorem lastBit_eq {m : Mask} (h : m ≠ 0#64) :
    ∃ k < 64, lastBit m = BitVec.ofNat 64 k ∧ m.getLsbD k = true ∧ ∀ j, k < j → m.getLsbD j = false := by
  unfold lastBit
  rw [if_neg (show ¬m = 0#64 from h)]
  obtain ⟨h1, h2⟩ := highest_bit m h
  obtain ⟨h3, h4⟩ := log2_highest m h
  exact ⟨63 - leadRun false m 64, by omega, rfl, h1 ▸ h3, h1 ▸ h4⟩

theorem clampVl_eq (a : Word) : clampVl a = BitVec.ofNat 64 (min a.toNat 64) := by
  unfold clampVl
  split
  · rw [min_eq_right (by omega)]
  · rw [min_eq_left (by omega)]
    apply BitVec.eq_of_toNat_eq
    rw [BitVec.toNat_ofNat, Nat.mod_eq_of_lt a.isLt]

/-! ### Vectors -/

theorem getElem_fillFrom (s : State) (z : Bool) (old : VReg) (vals : List Word) (e : Fin 64) :
    (s.fillFrom z old vals)[e] = match vals[e.val]? with
      | some w => w
      | none => if e.val < s.vl.toNat ∧ z = true then 0#64 else old[e] := by
  unfold State.fillFrom
  simp only [Fin.getElem_fin, Vector.getElem_ofFn, List.getD_eq_getElem?_getD]
  by_cases h : e.val < vals.length
  · rw [if_pos h, List.getElem?_eq_getElem h]
    rfl
  · rw [if_neg h, List.getElem?_eq_none (by omega)]
    by_cases h2 : e.val < s.vl.toNat <;> cases z <;> simp [h2]

theorem toList_getD (a : VReg) (k : Nat) : a.toList.getD k 0#64 = a[k]?.getD 0#64 := by
  rw [List.getD_eq_getElem?_getD, ← Vector.getElem?_toList]

theorem foldl_add (l : List (Fin 64)) (f : Fin 64 → Word) (b : Word) :
    l.foldl (fun sum k => sum + f k) b = b + (l.map f).sum := by
  induction l generalizing b with
  | nil => simp
  | cons k r ih => rw [List.foldl_cons, ih, List.map_cons, List.sum_cons, add_assoc]

theorem foldl_sum (l : List (Fin 64)) (f : Fin 64 → Word) :
    l.foldl (fun sum k => sum + f k) 0#64 = (l.map f).sum := by
  rw [foldl_add]
  exact zero_add _

end Sys2Proof.Machine
end

