-- ==== Sys2Proof/Laws/VectorMemory.lean ====
section
/-! SUPPORT. The stores of a vector as one list of addresses and values. -/

namespace Sys2Proof.Machine

/-- A fold that stores what `item` says, if anything. -/
theorem foldl_items {α : Type} (n : Nat) (item : α → Option (Word × Word)) (l : List α) (s : State) :
    l.foldl (fun t e => match item e with
      | some p => t.store p.1 n p.2
      | none => t) s =
      { s with mem := (l.filterMap item).foldl (fun m p => memWrite m p.1 n p.2) s.mem } := by
  induction l generalizing s with
  | nil => rfl
  | cons e r ih =>
    rw [List.foldl_cons, ih, List.filterMap_cons]
    cases item e <;> rfl

/-- What an inactive or active element stores. -/
def storeItem (s : State) (ea : Fin 64 → Word) (rb : BitVec 5) (e : Fin 64) : Option (Word × Word) :=
  if e.val < s.vl.toNat then
    if s.strideMask.1.getLsbD e.val then some (ea e, (s.readV rb)[e])
    else if s.strideMask.2 then some (ea e, 0#64) else none
  else none

theorem storeElements_eq (n : Nat) (ea : Fin 64 → Word) (rb : BitVec 5) (s : State) :
    storeElements n ea rb s = .next ({ s with mem :=
      ((List.finRange 64).filterMap (storeItem s ea rb)).foldl (fun m p => memWrite m p.1 n p.2) s.mem } : State).finish := by
  unfold storeElements
  dsimp only
  rw [accessing_eq, ← foldl_items n (storeItem s ea rb)]
  congr 3
  funext t e
  unfold storeItem
  split_ifs <;> rfl

theorem elementSize_eq (f4 : BitVec 4) :
    elementSize f4 = [some 1, some 2, some 4, some 8, none, none, none, some 8].getD f4.toNat none := by
  revert f4
  decide

theorem elementSize_le {f4 : BitVec 4} {n : Nat} (h : elementSize f4 = some n) : n ≤ 8 := by
  revert n
  revert f4
  decide

end Sys2Proof.Machine
end

