-- ==== Sys2Proof/Laws/Ordinary.lean ====
section
/-! SUPPORT. What every instruction outside the system ones does at most: its own work on registers and memory, and then a jump or an exception. -/

namespace Sys2Proof.Machine

/-- What an instruction's own work may do in every case: write x, v, vm, memory and what the end of the
instruction sets. -/
structure Quiet (s t : State) : Prop where
  tvec : t.tvec = s.tvec
  irqLines : t.irqLines = s.irqLines
  vl : t.vl = s.vl
  tlb : t.tlb = s.tlb
  coeff : t.coeff = s.coeff
  plotLog : t.plotLog = s.plotLog
  imem : t.imem = s.imem
  dcacheEnable : t.dcacheEnable = s.dcacheEnable
  csr : t.csr = s.csr
  semaphore : t.semaphore = s.semaphore
  queues : t.queues = s.queues
  badaddr : t.badaddr = s.badaddr
  pmstack : t.pmstack = s.pmstack
  mem : Memory.wf s.mem = true → Memory.wf t.mem = true

theorem Quiet.refl (s : State) : Quiet s s := ⟨rfl, rfl, rfl, rfl, rfl, rfl, rfl, rfl, rfl, rfl, rfl, rfl, rfl, id⟩

theorem Quiet.trans {s t u : State} (h : Quiet s t) (k : Quiet t u) : Quiet s u :=
  ⟨k.1.trans h.1, k.2.trans h.2, k.3.trans h.3, k.4.trans h.4, k.5.trans h.5, k.6.trans h.6, k.7.trans h.7,
    k.8.trans h.8, k.9.trans h.9, k.10.trans h.10, k.11.trans h.11, k.12.trans h.12, k.13.trans h.13,
    fun w => k.14 (h.14 w)⟩

theorem Quiet.writeX {s t : State} (h : Quiet s t) (r : BitVec 5) (a : Word) : Quiet s (t.writeX r a) := by
  unfold State.writeX
  split
  · exact h
  · exact ⟨h.1, h.2, h.3, h.4, h.5, h.6, h.7, h.8, h.9, h.10, h.11, h.12, h.13, h.14⟩

theorem Quiet.writeV {s t : State} (h : Quiet s t) (r : BitVec 5) (a : VReg) : Quiet s (t.writeV r a) :=
  ⟨h.1, h.2, h.3, h.4, h.5, h.6, h.7, h.8, h.9, h.10, h.11, h.12, h.13, h.14⟩

theorem Quiet.writeM {s t : State} (h : Quiet s t) (r : BitVec 3) (a : Mask) : Quiet s (t.writeM r a) :=
  ⟨h.1, h.2, h.3, h.4, h.5, h.6, h.7, h.8, h.9, h.10, h.11, h.12, h.13, h.14⟩

theorem Quiet.store {s t : State} (h : Quiet s t) (a : Word) (n : Nat) (v : Word) : Quiet s (t.store a n v) :=
  ⟨h.1, h.2, h.3, h.4, h.5, h.6, h.7, h.8, h.9, h.10, h.11, h.12, h.13, fun w => memWrite_wf _ _ _ _ (h.14 w)⟩

theorem Quiet.foldl {α : Type} {s t : State} (h : Quiet s t) (f : State → α → State)
    (hf : ∀ u a, Quiet s u → Quiet s (f u a)) (l : List α) : Quiet s (l.foldl f t) := by
  induction l generalizing t with
  | nil => exact h
  | cons a l ih => exact ih (hf t a h)

theorem Quiet.putPointer {s t : State} (h : Quiet s t) (ea b : Word) : Quiet s (putPointer.run ea b t) := by
  rw [putPointer_eq]
  exact ⟨h.1, h.2, h.3, h.4, h.5, h.6, h.7, h.8, h.9, h.10, h.11, h.12, h.13,
    fun w => cardBytes_wf _ _ _ (memWrite_wf _ _ _ _ (h.14 w))⟩

/-- An ordinary instruction ends, after such work, in a jump or in an exception. -/
def Ordinary (s t : State) : Prop := ∃ q, Quiet s q ∧ ((∃ a, t = q.jump a) ∨ ∃ c, t = q.raiseExc c)

theorem Quiet.jump {s q : State} (h : Quiet s q) (a : Word) : Ordinary s (q.jump a) := ⟨q, h, .inl ⟨a, rfl⟩⟩
theorem Quiet.finish {s q : State} (h : Quiet s q) : Ordinary s q.finish := ⟨q, h, .inl ⟨_, rfl⟩⟩
theorem Quiet.finishShort {s q : State} (h : Quiet s q) : Ordinary s q.finishShort := ⟨q, h, .inl ⟨_, rfl⟩⟩
theorem Quiet.raises {s q : State} (h : Quiet s q) (c : Word) : Ordinary s (q.raiseExc c) := ⟨q, h, .inr ⟨c, rfl⟩⟩
theorem Ordinary.unimplemented (s : State) : Ordinary s s.unimplemented := (Quiet.refl s).raises _

/-- The outcome is an ordinary next state. -/
def Out.Ordinary (s : State) (r : Out) : Prop := ∃ t, r = .next t ∧ Machine.Ordinary s t

theorem ordinary_unimplemented (s : State) : Out.Ordinary s (.next s.unimplemented) :=
  ⟨_, rfl, Ordinary.unimplemented s⟩

theorem ordinary_next {s t : State} (h : Ordinary s t) : Out.Ordinary s (.next t) := ⟨_, rfl, h⟩

theorem ordinary_plainOut {v : Bool} {s : State} {r : Out} (h : Out.Ordinary s r) :
    Out.Ordinary s (plainOut v s r) := by
  unfold plainOut
  split
  · exact ordinary_unimplemented s
  · exact h

theorem ordinary_plain {v : Bool} {s t : State} (h : Ordinary s t) : Out.Ordinary s (plain v s t) :=
  ordinary_plainOut (ordinary_next h)

theorem ordinary_plainMask {s t : State} (h : Ordinary s t) : Out.Ordinary s (plainMask s t) := by
  unfold plainMask
  split
  · exact ordinary_unimplemented s
  · exact ordinary_next h

theorem ordinary_shortOut {s : State} {r : Out} (h : Out.Ordinary s r) : Out.Ordinary s (shortOut s r) := by
  unfold shortOut
  split
  · exact ordinary_unimplemented s
  · exact h

theorem ordinary_short {s t : State} (h : Ordinary s t) : Out.Ordinary s (short s t) :=
  ordinary_shortOut (ordinary_next h)

/-- An instruction that makes accesses and is else ordinary. -/
theorem ordinary_accessing {s t : State} (h : Ordinary s t) (x : Accesses) :
    Out.Ordinary s (accessing s x (.next t)) := by
  rw [accessing_eq]
  exact ordinary_next h

theorem ordinary_elementwise (v : Bool) (t : RSpec) (legal : Bool) (mz : Mask × Bool) (f : Fin 64 → Word)
    (s : State) : Out.Ordinary s (elementwise v t legal mz f s) := by
  refine ordinary_plain ?_
  split
  · split
    · exact ((Quiet.refl s).writeX _ _).finish
    · exact ((Quiet.refl s).writeV _ _).finish
    · exact Ordinary.unimplemented s
  · exact Ordinary.unimplemented s

theorem ordinary_elementwiseTrap (v : Bool) (t : RSpec) (legal : Bool) (mz : Mask × Bool)
    (fail : Fin 64 → Option (BitVec 8)) (f : Fin 64 → Word) (s : State) :
    Out.Ordinary s (elementwiseTrap v t legal mz fail f s) := by
  refine ordinary_plain ?_
  split
  · split
    · split
      · exact ((Quiet.refl s).writeX _ _).finish
      · exact (Quiet.refl s).raises _
    · split
      · exact ((Quiet.refl s).writeV _ _).finish
      · exact ((Quiet.refl s).writeV _ _).raises _
    · exact Ordinary.unimplemented s
  · exact Ordinary.unimplemented s

theorem ordinary_index {w : Nat} (n : Nat) (v : Bool) (a t : RSpec) (l : Bool) (key : Fin 64 → BitVec w)
    (s : State) : Out.Ordinary s (opIndex n v a t l key s) := by
  unfold opIndex
  split
  · refine ordinary_plain ?_
    split
    · exact ((Quiet.refl s).writeX _ _).finish
    · exact Ordinary.unimplemented s
  · exact ordinary_elementwise ..

theorem ordinary_check (v legal : Bool) (ok : Fin 64 → Bool) (s : State) :
    Out.Ordinary s (checkBounds v legal ok s) := by
  refine ordinary_plain ?_
  split
  · split <;> split <;> first | exact (Quiet.refl s).finish | exact (Quiet.refl s).raises _
  · exact Ordinary.unimplemented s

theorem ordinary_branch (ext : BitVec 6 → Word) (o : Branch) (cond : Word → Word → Bool) (s : State) :
    Out.Ordinary s (branch ext o cond s) := by
  refine ordinary_next ?_
  split
  · split
    · exact (Quiet.refl s).jump _
    · split
      · exact Ordinary.unimplemented s
      · exact ((Quiet.refl s).writeX _ _).jump _
  · exact Ordinary.unimplemented s

theorem ordinary_loadDisp (signed : Bool) (n : Nat) (o : LdD) (s : State) : Out.Ordinary s (loadDisp signed n o s) := by
  refine ordinary_plainOut ?_
  split
  · exact ordinary_accessing ((Quiet.refl s).writeX _ _).finish _
  · exact ordinary_unimplemented s

theorem ordinary_loadIndexed (signed : Bool) (n : Nat) (o : LdX) (s : State) :
    Out.Ordinary s (loadIndexed signed n o s) := by
  refine ordinary_plainOut ?_
  split
  · split
    · exact ordinary_accessing ((Quiet.refl s).writeX _ _).finish _
    · exact ordinary_unimplemented s
  · exact ordinary_unimplemented s

theorem ordinary_storeDisp {put : Put} (hp : ∀ ea b s, Quiet s (put.run ea b s)) (o : StD)
    (s : State) : Out.Ordinary s (storeDisp put o s) := by
  refine ordinary_plainOut ?_
  split
  · split
    · exact ordinary_accessing (hp _ _ s).finish _
    · exact ordinary_unimplemented s
  · exact ordinary_unimplemented s

theorem ordinary_storeIndexed {put : Put} (hp : ∀ ea b s, Quiet s (put.run ea b s)) (o : StX)
    (s : State) : Out.Ordinary s (storeIndexed put o s) := by
  refine ordinary_plainOut ?_
  split
  · split
    · exact ordinary_accessing (hp _ _ s).finish _
    · exact ordinary_unimplemented s
  · exact ordinary_unimplemented s

theorem quiet_putBytes (n : Nat) (ea b : Word) (s : State) : Quiet s ((putBytes n).run ea b s) := (Quiet.refl s).store _ _ _
theorem quiet_putPointer (ea b : Word) (s : State) : Quiet s (putPointer.run ea b s) := (Quiet.refl s).putPointer _ _

theorem quiet_storeMany (ea : Word) (s : State) : Quiet s (storeMany ea s) :=
  (Quiet.refl s).foldl _ (fun _ _ h => h.store _ _ _) _
theorem quiet_loadMany (ea : Word) (s : State) : Quiet s (loadMany ea s) :=
  (Quiet.refl s).foldl _ (fun _ _ h => h.writeX _ _) _

theorem ordinary_loadElements (n : Nat) (ea : Fin 64 → Word) (r : BitVec 5) (s : State) :
    Out.Ordinary s (loadElements n ea r s) := ordinary_accessing ((Quiet.refl s).writeV _ _).finish _
theorem ordinary_loadCompressed (n : Nat) (ea : Fin 64 → Nat → Word) (r : BitVec 5) (s : State) :
    Out.Ordinary s (loadCompressed n ea r s) := ordinary_accessing ((Quiet.refl s).writeV _ _).finish _
theorem ordinary_storeElements (n : Nat) (ea : Fin 64 → Word) (r : BitVec 5) (s : State) :
    Out.Ordinary s (storeElements n ea r s) := by
  refine ordinary_accessing ?_ _
  refine ((Quiet.refl s).foldl _ (fun u e h => ?_) _).finish
  split
  · split
    · exact h.store _ _ _
    · split
      · exact h.store _ _ _
      · exact h
  · exact h
theorem ordinary_storeCompressed (n : Nat) (ea : Fin 64 → Nat → Word) (r : BitVec 5) (s : State) :
    Out.Ordinary s (storeCompressed n ea r s) := by
  have h := (Quiet.refl s).foldl (fun t (p : Fin 64 × Nat) => t.store (ea p.1 p.2) n (s.readV r)[p.1])
    (fun _ _ h => h.store _ _ _) (s.activeList s.strideMask.1).zipIdx
  refine ordinary_accessing (Quiet.finish ?_) _
  split
  · exact h.writeV _ _
  · exact h

theorem ordinary_withStride {s : State} {body : Word → Out} (h : ∀ c, Out.Ordinary s (body c)) :
    Out.Ordinary s (withStride s body) := by
  unfold withStride
  split
  · exact h _
  · exact ordinary_unimplemented s
theorem ordinary_withIndex {s : State} {body : VReg → Out} (h : ∀ c, Out.Ordinary s (body c)) :
    Out.Ordinary s (withIndex s body) := by
  unfold withIndex
  split
  · exact h _
  · exact ordinary_unimplemented s
theorem ordinary_vload {s : State} {body : Nat → Word → BitVec 5 → Out} (h : ∀ n a r, Out.Ordinary s (body n a r))
    (f4 : BitVec 4) (o : LdD) : Out.Ordinary s (vload f4 o body s) := by
  refine ordinary_plainOut ?_
  split
  · exact h _ _ _
  · exact ordinary_unimplemented s
theorem ordinary_vstore {s : State} {body : Nat → Word → BitVec 5 → Out} (h : ∀ n a r, Out.Ordinary s (body n a r))
    (f4 : BitVec 4) (o : StD) : Out.Ordinary s (vstore f4 o body s) := by
  refine ordinary_plainOut ?_
  split
  · exact h _ _ _
  · exact ordinary_unimplemented s

theorem ordinary_opR1 (v : Bool) (o : R1) (f : Word → Word) (s : State) : Out.Ordinary s (opR1 v o f s) := ordinary_elementwise ..
theorem ordinary_opR2 (ext : BitVec 6 → Word) (v : Bool) (o : R2) (f : Word → Word → Word) (s : State) : Out.Ordinary s (opR2 ext v o f s) := ordinary_elementwise ..
theorem ordinary_opR2I (v : Bool) (o : R2I) (f : Word → Word → Word) (s : State) : Out.Ordinary s (opR2I v o f s) := ordinary_elementwise ..
theorem ordinary_opR2Trap (ext : BitVec 6 → Word) (v : Bool) (o : R2) (g : Word → Word → Option (BitVec 8)) (f : Word → Word → Word) (s : State) : Out.Ordinary s (opR2Trap ext v o g f s) := ordinary_elementwiseTrap ..
theorem ordinary_opRI (k : ImmExt) (v : Bool) (o : RI) (f : Word → Word → Word) (s : State) : Out.Ordinary s (opRI k v o f s) := ordinary_elementwise ..
theorem ordinary_opR3 (e1 e2 : BitVec 6 → Word) (v : Bool) (o : R2) (f : Word → Word → Word → Word) (s : State) : Out.Ordinary s (opR3 e1 e2 v o f s) := ordinary_elementwise ..
theorem ordinary_opR4 (e1 e2 e3 : BitVec 6 → Word) (v : Bool) (o : R2) (f : Word → Word → Word → Word → Word) (s : State) : Out.Ordinary s (opR4 e1 e2 e3 v o f s) := ordinary_elementwise ..

theorem ordinary_answer (t : RSpec) (a : Word) (s : State) : Ordinary s (answer t a s) := by
  unfold answer
  split
  · exact ((Quiet.refl s).writeX _ _).finish
  · exact Ordinary.unimplemented s
theorem ordinary_withQueue {a : RSpec} {f : QueueNo → State} {s : State} (h : ∀ q, Ordinary s (f q)) :
    Ordinary s (withQueue a f s) := by
  unfold withQueue
  split
  · exact h _
  · exact Ordinary.unimplemented s
theorem ordinary_poll (r : BitVec 5) {s t : State} (h : Ordinary s t) : Ordinary s (pollInterrupt r s t) := by
  unfold pollInterrupt
  split
  · exact h
  · exact ((Quiet.refl s).writeX _ _).raises _

theorem ordinary_mask (o : MaskRRR) (f : Mask → Mask → Mask) (s : State) : Out.Ordinary s (opMask o f s) :=
  ordinary_plainMask ((Quiet.refl s).writeM _ _).finish
theorem ordinary_maskShift (o : MaskShift) (f : Mask → Nat → Mask) (s : State) : Out.Ordinary s (opMaskShift o f s) := by
  refine ordinary_plainMask ?_
  split
  · exact ((Quiet.refl s).writeM _ _).finish
  · exact Ordinary.unimplemented s
theorem ordinary_toMask (o : ToMask) (f : Word → Mask) (s : State) : Out.Ordinary s (opToMask o f s) := by
  refine ordinary_plainMask ?_
  split
  · exact ((Quiet.refl s).writeM _ _).finish
  · exact Ordinary.unimplemented s
theorem ordinary_fromMask (tt : BitVec 2) (rt : BitVec 5) (a : Word) (s : State) :
    Out.Ordinary s (opFromMask tt rt a s) := by
  refine ordinary_plainMask ?_
  split
  · exact ((Quiet.refl s).writeX _ _).finish
  · exact Ordinary.unimplemented s
theorem ordinary_slide (o : R2) (src : Nat → Nat → Nat → Option Nat) (s : State) : Out.Ordinary s (slide o src s) := by
  refine ordinary_plain ?_
  split
  · split
    · exact Ordinary.unimplemented s
    · exact ((Quiet.refl s).writeV _ _).finish
  · exact Ordinary.unimplemented s

/-- The instructions that change more: modifiers, the waits, those that run another word, and the writers
of a special register, a queue, the privilege stack or the fetch view. -/
def isSpecial : Instr → Bool
  | .exi0 _ | .exi1 _ | .exi2 _ | .exi3 _ | .exi4 _ | .imod _ _ | .brmod _ | .stride _ _ | .reglist _
  | .wfi | .cWfi | .exec _ | .myst _ | .mystImmediate _ | .mtvl _ | .tlbrw _ | .rwCoeff _ | .plot _ _
  | .cache _ | .csrrw _ | .csrrs _ | .csrrc _ | .rte _ _ | .cRti | .pushq _ _ | .pushqi _ _
  | .popq _ _ | .popqi _ _ | .rex _ => true
  | _ => false

/-- Every instruction but those answers an ordinary next state. -/
theorem exec_ordinary (i : Instr) (s : State) (h : isSpecial i = false) : Out.Ordinary s (exec i s) := by
  cases i with
  | brk a0 =>
    rw [exec_brk]
    unfold execBrk
    exact ordinary_plain ((Quiet.refl s).raises _)
  | cntlz a0 a1 =>
    rw [exec_cntlz]
    unfold execCntlz
    exact ordinary_opR1 ..
  | cntlo a0 a1 =>
    rw [exec_cntlo]
    unfold execCntlo
    exact ordinary_opR1 ..
  | cntpop a0 a1 =>
    rw [exec_cntpop]
    unfold execCntpop
    exact ordinary_opR1 ..
  | com a0 a1 =>
    rw [exec_com]
    unfold execCom
    exact ordinary_opR1 ..
  | not a0 a1 =>
    rw [exec_not]
    unfold execNot
    exact ordinary_opR1 ..
  | neg a0 a1 =>
    rw [exec_neg]
    unfold execNeg
    exact ordinary_opR1 ..
  | abs a0 a1 =>
    rw [exec_abs]
    unfold execAbs
    exact ordinary_opR1 ..
  | nabs a0 a1 =>
    rw [exec_nabs]
    unfold execNabs
    exact ordinary_opR1 ..
  | sqrt a0 a1 =>
    rw [exec_sqrt]
    unfold execSqrt
    exact ordinary_opR1 ..
  | tst a0 a1 => exact ordinary_unimplemented s
  | zxb a0 a1 =>
    rw [exec_zxb]
    unfold execZxb
    exact ordinary_opR1 ..
  | zxw a0 a1 =>
    rw [exec_zxw]
    unfold execZxw
    exact ordinary_opR1 ..
  | zxt a0 a1 =>
    rw [exec_zxt]
    unfold execZxt
    exact ordinary_opR1 ..
  | ptrinc a0 a1 => exact ordinary_unimplemented s
  | transform a0 a1 =>
    rw [exec_transform]
    unfold execTransform
    exact ordinary_opR1 ..
  | sxb a0 a1 =>
    rw [exec_sxb]
    unfold execSxb
    exact ordinary_opR1 ..
  | sxw a0 a1 =>
    rw [exec_sxw]
    unfold execSxw
    exact ordinary_opR1 ..
  | sxt a0 a1 =>
    rw [exec_sxt]
    unfold execSxt
    exact ordinary_opR1 ..
  | clip a0 a1 =>
    rw [exec_clip]
    unfold execClip
    exact ordinary_opR1 ..
  | v2bits a0 =>
    rw [exec_v2bits]
    unfold execV2bits
    refine ordinary_plain ?_
    (repeat' split) <;>
      first
        | exact Ordinary.unimplemented s
        | exact ((Quiet.refl s).writeV _ _).finish
        | exact ((Quiet.refl s).writeX _ _).finish
  | bits2v a0 =>
    rw [exec_bits2v]
    unfold execBits2v
    refine ordinary_plain ?_
    (repeat' split) <;>
      first
        | exact Ordinary.unimplemented s
        | exact ((Quiet.refl s).writeV _ _).finish
  | vcmprss a0 =>
    rw [exec_vcmprss]
    unfold execVcmprss
    refine ordinary_plain ?_
    (repeat' split) <;>
      first
        | exact Ordinary.unimplemented s
        | exact ((Quiet.refl s).writeV _ _).finish
  | vcidx a0 =>
    rw [exec_vcidx]
    unfold execVcidx
    refine ordinary_plain ?_
    (repeat' split) <;>
      first
        | exact Ordinary.unimplemented s
        | exact ((Quiet.refl s).writeV _ _).finish
  | vscan a0 =>
    rw [exec_vscan]
    unfold execVscan
    refine ordinary_plain ?_
    (repeat' split) <;>
      first
        | exact Ordinary.unimplemented s
        | exact ((Quiet.refl s).writeV _ _).finish
  | and a0 a1 =>
    rw [exec_and]
    unfold execAnd
    exact ordinary_opR2 ..
  | or a0 a1 =>
    rw [exec_or]
    unfold execOr
    exact ordinary_opR2 ..
  | xor a0 a1 =>
    rw [exec_xor]
    unfold execXor
    exact ordinary_opR2 ..
  | add a0 a1 =>
    rw [exec_add]
    unfold execAdd
    exact ordinary_opR2 ..
  | sub a0 a1 =>
    rw [exec_sub]
    unfold execSub
    exact ordinary_opR2 ..
  | nand a0 a1 =>
    rw [exec_nand]
    unfold execNand
    exact ordinary_opR2 ..
  | nor a0 a1 =>
    rw [exec_nor]
    unfold execNor
    exact ordinary_opR2 ..
  | xnor a0 a1 =>
    rw [exec_xnor]
    unfold execXnor
    exact ordinary_opR2 ..
  | mulu a0 a1 =>
    rw [exec_mulu]
    unfold execMulu
    exact ordinary_opR2 ..
  | mulh a0 a1 =>
    rw [exec_mulh]
    unfold execMulh
    exact ordinary_opR2 ..
  | divu a0 a1 =>
    rw [exec_divu]
    unfold execDivu
    exact ordinary_opR2 ..
  | rem a0 a1 =>
    rw [exec_rem]
    unfold execRem
    exact ordinary_opR2 ..
  | remu a0 a1 =>
    rw [exec_remu]
    unfold execRemu
    exact ordinary_opR2 ..
  | remsu a0 a1 =>
    rw [exec_remsu]
    unfold execRemsu
    exact ordinary_opR2 ..
  | mulsu a0 a1 =>
    rw [exec_mulsu]
    unfold execMulsu
    exact ordinary_opR2 ..
  | perm a0 a1 =>
    rw [exec_perm]
    unfold execPerm
    exact ordinary_opR2 ..
  | dif a0 a1 =>
    rw [exec_dif]
    unfold execDif
    exact ordinary_opR2 ..
  | wydndx a0 a1 =>
    rw [exec_wydndx]
    unfold execWydndx
    exact ordinary_index ..
  | mulf a0 a1 =>
    rw [exec_mulf]
    unfold execMulf
    exact ordinary_opR2 ..
  | mulsuh a0 a1 =>
    rw [exec_mulsuh]
    unfold execMulsuh
    exact ordinary_opR2 ..
  | muluh a0 a1 =>
    rw [exec_muluh]
    unfold execMuluh
    exact ordinary_opR2 ..
  | cmp a0 a1 =>
    rw [exec_cmp]
    unfold execCmp
    exact ordinary_opR2 ..
  | u21ndx a0 a1 =>
    rw [exec_u21ndx]
    unfold execU21ndx
    exact ordinary_index ..
  | seq a0 a1 =>
    rw [exec_seq]
    unfold execSeq
    exact ordinary_opR2 ..
  | sne a0 a1 =>
    rw [exec_sne]
    unfold execSne
    exact ordinary_opR2 ..
  | min a0 a1 =>
    rw [exec_min]
    unfold execMin
    exact ordinary_opR2 ..
  | max a0 a1 =>
    rw [exec_max]
    unfold execMax
    exact ordinary_opR2 ..
  | slt a0 a1 =>
    rw [exec_slt]
    unfold execSlt
    exact ordinary_opR2 ..
  | sge a0 a1 =>
    rw [exec_sge]
    unfold execSge
    exact ordinary_opR2 ..
  | sltu a0 a1 =>
    rw [exec_sltu]
    unfold execSltu
    exact ordinary_opR2 ..
  | sgeu a0 a1 =>
    rw [exec_sgeu]
    unfold execSgeu
    exact ordinary_opR2 ..
  | mor a0 a1 =>
    rw [exec_mor]
    unfold execMor
    exact ordinary_opR2 ..
  | mxor a0 a1 =>
    rw [exec_mxor]
    unfold execMxor
    exact ordinary_opR2 ..
  | mort a0 a1 =>
    rw [exec_mort]
    unfold execMort
    exact ordinary_opR2 ..
  | mxort a0 a1 =>
    rw [exec_mxort]
    unfold execMxort
    exact ordinary_opR2 ..
  | plot a0 a1 => exact (Bool.false_ne_true h.symm).elim
  | sll a0 a1 =>
    rw [exec_sll]
    unfold execSll
    exact ordinary_opR2 ..
  | srl a0 a1 =>
    rw [exec_srl]
    unfold execSrl
    exact ordinary_opR2 ..
  | sra a0 a1 =>
    rw [exec_sra]
    unfold execSra
    exact ordinary_opR2 ..
  | rol a0 a1 =>
    rw [exec_rol]
    unfold execRol
    exact ordinary_opR2 ..
  | ror a0 a1 =>
    rw [exec_ror]
    unfold execRor
    exact ordinary_opR2 ..
  | mul a0 a1 a2 =>
    rw [exec_mul]
    unfold execMul
    exact ordinary_opR2Trap ..
  | div a0 a1 a2 =>
    rw [exec_div]
    unfold execDiv
    exact ordinary_opR2Trap ..
  | divsu a0 a1 a2 =>
    rw [exec_divsu]
    unfold execDivsu
    exact ordinary_opR2Trap ..
  | myst a0 => exact (Bool.false_ne_true h.symm).elim
  | rwCoeff a0 => exact (Bool.false_ne_true h.symm).elim
  | slli a0 a1 =>
    rw [exec_slli]
    unfold execSlli
    exact ordinary_opR2I ..
  | srli a0 a1 =>
    rw [exec_srli]
    unfold execSrli
    exact ordinary_opR2I ..
  | srai a0 a1 =>
    rw [exec_srai]
    unfold execSrai
    exact ordinary_opR2I ..
  | roli a0 a1 =>
    rw [exec_roli]
    unfold execRoli
    exact ordinary_opR2I ..
  | rori a0 a1 =>
    rw [exec_rori]
    unfold execRori
    exact ordinary_opR2I ..
  | mulfDuplicate a0 a1 => exact ordinary_unimplemented s
  | vsllv a0 =>
    rw [exec_vsllv]
    unfold execVsllv
    exact ordinary_slide ..
  | vsrlv a0 =>
    rw [exec_vsrlv]
    unfold execVsrlv
    exact ordinary_slide ..
  | vex a0 =>
    rw [exec_vex]
    unfold execVex
    refine ordinary_plain ?_
    (repeat' split) <;>
      first
        | exact Ordinary.unimplemented s
        | exact ((Quiet.refl s).writeX _ _).finish
  | veins a0 =>
    rw [exec_veins]
    unfold execVeins
    refine ordinary_plain ?_
    (repeat' split) <;>
      first
        | exact Ordinary.unimplemented s
        | exact ((Quiet.refl s).writeV _ _).finish
  | mux a0 a1 =>
    rw [exec_mux]
    unfold execMux
    exact ordinary_opR3 ..
  | sllp a0 a1 =>
    rw [exec_sllp]
    unfold execSllp
    exact ordinary_opR3 ..
  | ptrdif a0 a1 =>
    rw [exec_ptrdif]
    unfold execPtrdif
    exact ordinary_opR3 ..
  | blend a0 a1 =>
    rw [exec_blend]
    unfold execBlend
    exact ordinary_opR3 ..
  | fdp a0 a1 =>
    rw [exec_fdp]
    unfold execFdp
    exact ordinary_opR4 ..
  | sllpi a0 a1 =>
    rw [exec_sllpi]
    unfold execSllpi
    exact ordinary_elementwise ..
  | chkR3Form a0 a1 =>
    rw [exec_chkR3Form]
    unfold execChkR3Form
    exact ordinary_check ..
  | dep a0 a1 =>
    rw [exec_dep]
    unfold execDep
    exact ordinary_opR4 ..
  | ext a0 a1 =>
    rw [exec_ext]
    unfold execExt
    exact ordinary_opR4 ..
  | extu a0 a1 =>
    rw [exec_extu]
    unfold execExtu
    exact ordinary_opR4 ..
  | ffo a0 a1 =>
    rw [exec_ffo]
    unfold execFfo
    exact ordinary_elementwise ..
  | addImmediate a0 a1 =>
    rw [exec_addImmediate]
    unfold execAddImmediate
    exact ordinary_opRI ..
  | subfImmediate a0 a1 =>
    rw [exec_subfImmediate]
    unfold execSubfImmediate
    exact ordinary_opRI ..
  | mulImmediate a0 a1 =>
    rw [exec_mulImmediate]
    unfold execMulImmediate
    exact ordinary_opRI ..
  | andImmediate a0 a1 =>
    rw [exec_andImmediate]
    unfold execAndImmediate
    exact ordinary_opRI ..
  | orImmediate a0 a1 =>
    rw [exec_orImmediate]
    unfold execOrImmediate
    exact ordinary_opRI ..
  | xorImmediate a0 a1 =>
    rw [exec_xorImmediate]
    unfold execXorImmediate
    exact ordinary_opRI ..
  | muluImmediate a0 a1 =>
    rw [exec_muluImmediate]
    unfold execMuluImmediate
    exact ordinary_opRI ..
  | divImmediate a0 a1 =>
    rw [exec_divImmediate]
    unfold execDivImmediate
    exact ordinary_opRI ..
  | divuImmediate a0 a1 =>
    rw [exec_divuImmediate]
    unfold execDivuImmediate
    exact ordinary_opRI ..
  | divsuImmediate a0 a1 =>
    rw [exec_divsuImmediate]
    unfold execDivsuImmediate
    exact ordinary_opRI ..
  | mulfImmediate a0 a1 =>
    rw [exec_mulfImmediate]
    unfold execMulfImmediate
    exact ordinary_opRI ..
  | mulsuImmediate a0 a1 =>
    rw [exec_mulsuImmediate]
    unfold execMulsuImmediate
    exact ordinary_opRI ..
  | permImmediate a0 a1 =>
    rw [exec_permImmediate]
    unfold execPermImmediate
    exact ordinary_opRI ..
  | remImmediate a0 a1 =>
    rw [exec_remImmediate]
    unfold execRemImmediate
    exact ordinary_opRI ..
  | remuImmediate a0 a1 =>
    rw [exec_remuImmediate]
    unfold execRemuImmediate
    exact ordinary_opRI ..
  | wydndxImmediate a0 a1 =>
    rw [exec_wydndxImmediate]
    unfold execWydndxImmediate
    exact ordinary_index ..
  | remsuImmediate a0 a1 =>
    rw [exec_remsuImmediate]
    unfold execRemsuImmediate
    exact ordinary_opRI ..
  | divrImmediate a0 a1 =>
    rw [exec_divrImmediate]
    unfold execDivrImmediate
    exact ordinary_opRI ..
  | u21ndxImmediate a0 a1 =>
    rw [exec_u21ndxImmediate]
    unfold execU21ndxImmediate
    exact ordinary_index ..
  | seqImmediate a0 a1 =>
    rw [exec_seqImmediate]
    unfold execSeqImmediate
    exact ordinary_opRI ..
  | sneImmediate a0 a1 =>
    rw [exec_sneImmediate]
    unfold execSneImmediate
    exact ordinary_opRI ..
  | sltImmediate a0 a1 =>
    rw [exec_sltImmediate]
    unfold execSltImmediate
    exact ordinary_opRI ..
  | sgtImmediate a0 a1 =>
    rw [exec_sgtImmediate]
    unfold execSgtImmediate
    exact ordinary_opRI ..
  | sltuImmediate a0 a1 =>
    rw [exec_sltuImmediate]
    unfold execSltuImmediate
    exact ordinary_opRI ..
  | sgtuImmediate a0 a1 =>
    rw [exec_sgtuImmediate]
    unfold execSgtuImmediate
    exact ordinary_opRI ..
  | mystImmediate a0 => exact (Bool.false_ne_true h.symm).elim
  | sand a0 => exact ordinary_unimplemented s
  | sor a0 => exact ordinary_unimplemented s
  | setGroup a0 => exact ordinary_unimplemented s
  | chkImmediate a0 a1 =>
    rw [exec_chkImmediate]
    unfold execChkImmediate
    exact ordinary_check ..
  | bytndx a0 a1 =>
    rw [exec_bytndx]
    unfold execBytndx
    exact ordinary_index ..
  | bytndxImmediate a0 a1 =>
    rw [exec_bytndxImmediate]
    unfold execBytndxImmediate
    exact ordinary_index ..
  | csrrd a0 =>
    rw [exec_csrrd]
    unfold execCsrrd
    refine ordinary_plain ?_
    (repeat' split) <;>
      first
        | exact Ordinary.unimplemented s
        | exact (Quiet.refl s).raises _
        | exact ((Quiet.refl s).writeX _ _).finish
  | csrrw a0 => exact (Bool.false_ne_true h.symm).elim
  | csrrs a0 => exact (Bool.false_ne_true h.symm).elim
  | csrrc a0 => exact (Bool.false_ne_true h.symm).elim
  | llal => exact ordinary_unimplemented s
  | llah => exact ordinary_unimplemented s
  | lpal => exact ordinary_unimplemented s
  | lpah => exact ordinary_unimplemented s
  | setkey => exact ordinary_unimplemented s
  | setto => exact ordinary_unimplemented s
  | getto => exact ordinary_unimplemented s
  | getzl => exact ordinary_unimplemented s
  | mvseg => exact ordinary_unimplemented s
  | csave => exact ordinary_unimplemented s
  | crestore => exact ordinary_unimplemented s
  | exec a0 => exact (Bool.false_ne_true h.symm).elim
  | pushq a0 a1 => exact (Bool.false_ne_true h.symm).elim
  | popq a0 a1 => exact (Bool.false_ne_true h.symm).elim
  | peekq a0 a1 =>
    rw [exec_peekq]
    unfold execPeekq
    exact ordinary_plain (ordinary_withQueue fun _ => ordinary_answer ..)
  | statq a0 a1 =>
    rw [exec_statq]
    unfold execStatq
    exact ordinary_plain (ordinary_withQueue fun _ => ordinary_answer ..)
  | pushqi a0 a1 => exact (Bool.false_ne_true h.symm).elim
  | popqi a0 a1 => exact (Bool.false_ne_true h.symm).elim
  | peekqi a0 a1 =>
    rw [exec_peekqi]
    unfold execPeekqi
    exact ordinary_plain (ordinary_answer ..)
  | statqi a0 a1 =>
    rw [exec_statqi]
    unfold execStatqi
    exact ordinary_plain (ordinary_answer ..)
  | rex a0 => exact (Bool.false_ne_true h.symm).elim
  | pfi a0 =>
    rw [exec_pfi]
    unfold execPfi
    refine ordinary_plain ?_
    split
    exacts [ordinary_poll _ (Quiet.refl s).finish, Ordinary.unimplemented s]
  | wfi => exact (Bool.false_ne_true h.symm).elim
  | rte a0 a1 => exact (Bool.false_ne_true h.symm).elim
  | tlbrw a0 => exact (Bool.false_ne_true h.symm).elim
  | sync =>
    rw [exec_sync]
    unfold execSync
    exact ordinary_plain (Quiet.refl s).finish
  | fmov a0 a1 =>
    rw [exec_fmov]
    unfold execFmov
    exact ordinary_opR1 ..
  | frsqrt a0 a1 => exact ordinary_unimplemented s
  | ftoi a0 a1 =>
    rw [exec_ftoi]
    unfold execFtoi
    exact ordinary_opR1 ..
  | itof a0 a1 =>
    rw [exec_itof]
    unfold execItof
    exact ordinary_opR1 ..
  | fsign a0 a1 =>
    rw [exec_fsign]
    unfold execFsign
    exact ordinary_opR1 ..
  | fman a0 a1 => exact ordinary_unimplemented s
  | fs2d a0 a1 => exact ordinary_unimplemented s
  | fs2q a0 a1 => exact ordinary_unimplemented s
  | fd2q a0 a1 => exact ordinary_unimplemented s
  | fstat a0 a1 => exact ordinary_unimplemented s
  | isnan a0 a1 =>
    rw [exec_isnan]
    unfold execIsnan
    exact ordinary_opR1 ..
  | finite a0 a1 =>
    rw [exec_finite]
    unfold execFinite
    exact ordinary_opR1 ..
  | ftx a0 a1 => exact ordinary_unimplemented s
  | fcx a0 a1 => exact ordinary_unimplemented s
  | fex a0 a1 => exact ordinary_unimplemented s
  | fdx a0 a1 => exact ordinary_unimplemented s
  | frm a0 a1 => exact ordinary_unimplemented s
  | trunc a0 a1 =>
    rw [exec_trunc]
    unfold execTrunc
    exact ordinary_opR1 ..
  | fsync a0 a1 =>
    rw [exec_fsync]
    unfold execFsync
    refine ordinary_plain ?_
    split
    · exact (Quiet.refl s).finish
    · exact Ordinary.unimplemented s
  | fres a0 a1 => exact ordinary_unimplemented s
  | fsigmoid a0 a1 => exact ordinary_unimplemented s
  | fd2s a0 a1 => exact ordinary_unimplemented s
  | fq2s a0 a1 => exact ordinary_unimplemented s
  | fq2d a0 a1 => exact ordinary_unimplemented s
  | fclass a0 a1 => exact ordinary_unimplemented s
  | unord a0 a1 => exact ordinary_unimplemented s
  | fsqrt a0 a1 a2 =>
    rw [exec_fsqrt]
    unfold execFsqrt
    exact ordinary_opR1 ..
  | fabs a0 a1 =>
    rw [exec_fabs]
    unfold execFabs
    exact ordinary_opR1 ..
  | fnabs a0 a1 =>
    rw [exec_fnabs]
    unfold execFnabs
    exact ordinary_opR1 ..
  | fneg a0 a1 =>
    rw [exec_fneg]
    unfold execFneg
    exact ordinary_opR1 ..
  | scaleb a0 a1 => exact ordinary_unimplemented s
  | fmin a0 a1 =>
    rw [exec_fmin]
    unfold execFmin
    exact ordinary_opR2 ..
  | fmax a0 a1 =>
    rw [exec_fmax]
    unfold execFmax
    exact ordinary_opR2 ..
  | fadd a0 a1 =>
    rw [exec_fadd]
    unfold execFadd
    exact ordinary_opR2 ..
  | fsub a0 a1 =>
    rw [exec_fsub]
    unfold execFsub
    exact ordinary_opR2 ..
  | fmul a0 a1 =>
    rw [exec_fmul]
    unfold execFmul
    exact ordinary_opR2 ..
  | fdiv a0 a1 =>
    rw [exec_fdiv]
    unfold execFdiv
    exact ordinary_opR2 ..
  | frem a0 a1 => exact ordinary_unimplemented s
  | fnxt a0 a1 => exact ordinary_unimplemented s
  | fcmp a0 a1 =>
    rw [exec_fcmp]
    unfold execFcmp
    exact ordinary_opR2 ..
  | fseq a0 a1 =>
    rw [exec_fseq]
    unfold execFseq
    exact ordinary_opR2 ..
  | fslt a0 a1 =>
    rw [exec_fslt]
    unfold execFslt
    exact ordinary_opR2 ..
  | fsle a0 a1 =>
    rw [exec_fsle]
    unfold execFsle
    exact ordinary_opR2 ..
  | fsne a0 a1 =>
    rw [exec_fsne]
    unfold execFsne
    exact ordinary_opR2 ..
  | fcmpb a0 a1 =>
    rw [exec_fcmpb]
    unfold execFcmpb
    exact ordinary_opR2 ..
  | fsetm a0 a1 => exact ordinary_unimplemented s
  | cpysgn a0 a1 =>
    rw [exec_cpysgn]
    unfold execCpysgn
    exact ordinary_opR2 ..
  | sgninv a0 a1 => exact ordinary_unimplemented s
  | sgnand a0 a1 => exact ordinary_unimplemented s
  | sgnor a0 a1 => exact ordinary_unimplemented s
  | sgnxor a0 a1 => exact ordinary_unimplemented s
  | sgnxnor a0 a1 => exact ordinary_unimplemented s
  | fclassDyadic a0 a1 => exact ordinary_unimplemented s
  | fma a0 a1 =>
    rw [exec_fma]
    unfold execFma
    exact ordinary_opR3 ..
  | fms a0 a1 =>
    rw [exec_fms]
    unfold execFms
    exact ordinary_opR3 ..
  | fnma a0 a1 =>
    rw [exec_fnma]
    unfold execFnma
    exact ordinary_opR3 ..
  | fnms a0 a1 =>
    rw [exec_fnms]
    unfold execFnms
    exact ordinary_opR3 ..
  | f4Group a0 => exact ordinary_unimplemented s
  | dfabs a0 a1 =>
    rw [exec_dfabs]
    unfold execDfabs
    exact ordinary_opR1 ..
  | dfnabs a0 a1 =>
    rw [exec_dfnabs]
    unfold execDfnabs
    exact ordinary_opR1 ..
  | dfneg a0 a1 =>
    rw [exec_dfneg]
    unfold execDfneg
    exact ordinary_opR1 ..
  | dfsqrt a0 a1 a2 =>
    rw [exec_dfsqrt]
    unfold execDfsqrt
    exact ordinary_unimplemented s
  | pabs a0 a1 =>
    rw [exec_pabs]
    unfold execPabs
    exact ordinary_opR1 ..
  | pnabs a0 a1 =>
    rw [exec_pnabs]
    unfold execPnabs
    exact ordinary_opR1 ..
  | pneg a0 a1 =>
    rw [exec_pneg]
    unfold execPneg
    exact ordinary_opR1 ..
  | psqrt a0 a1 a2 =>
    rw [exec_psqrt]
    unfold execPsqrt
    exact ordinary_unimplemented s
  | dfmin a0 a1 =>
    rw [exec_dfmin]
    unfold execDfmin
    exact ordinary_unimplemented s
  | dfmax a0 a1 =>
    rw [exec_dfmax]
    unfold execDfmax
    exact ordinary_unimplemented s
  | dfadd a0 a1 =>
    rw [exec_dfadd]
    unfold execDfadd
    exact ordinary_unimplemented s
  | dfsub a0 a1 =>
    rw [exec_dfsub]
    unfold execDfsub
    exact ordinary_unimplemented s
  | dfmul a0 a1 =>
    rw [exec_dfmul]
    unfold execDfmul
    exact ordinary_unimplemented s
  | dfdiv a0 a1 =>
    rw [exec_dfdiv]
    unfold execDfdiv
    exact ordinary_unimplemented s
  | dfrem a0 a1 => exact ordinary_unimplemented s
  | dfnxt a0 a1 => exact ordinary_unimplemented s
  | dfcmp a0 a1 =>
    rw [exec_dfcmp]
    unfold execDfcmp
    exact ordinary_unimplemented s
  | dfseq a0 a1 =>
    rw [exec_dfseq]
    unfold execDfseq
    exact ordinary_unimplemented s
  | dfslt a0 a1 =>
    rw [exec_dfslt]
    unfold execDfslt
    exact ordinary_unimplemented s
  | dfsle a0 a1 =>
    rw [exec_dfsle]
    unfold execDfsle
    exact ordinary_unimplemented s
  | dfsne a0 a1 =>
    rw [exec_dfsne]
    unfold execDfsne
    exact ordinary_unimplemented s
  | dfcmpb a0 a1 =>
    rw [exec_dfcmpb]
    unfold execDfcmpb
    exact ordinary_unimplemented s
  | dfsetm a0 a1 => exact ordinary_unimplemented s
  | padd a0 a1 =>
    rw [exec_padd]
    unfold execPadd
    exact ordinary_unimplemented s
  | psub a0 a1 =>
    rw [exec_psub]
    unfold execPsub
    exact ordinary_unimplemented s
  | pmul a0 a1 =>
    rw [exec_pmul]
    unfold execPmul
    exact ordinary_unimplemented s
  | pdiv a0 a1 =>
    rw [exec_pdiv]
    unfold execPdiv
    exact ordinary_unimplemented s
  | psle a0 a1 =>
    rw [exec_psle]
    unfold execPsle
    exact ordinary_unimplemented s
  | df3Group a0 => exact ordinary_unimplemented s
  | df4Group a0 => exact ordinary_unimplemented s
  | pst3Group a0 => exact ordinary_unimplemented s
  | pst4Group a0 => exact ordinary_unimplemented s
  | link a0 =>
    rw [exec_link]
    unfold execLink
    refine ordinary_plainOut ?_
    (repeat' split) <;>
      first
        | exact ordinary_unimplemented s
        | exact ordinary_accessing (((((Quiet.refl s).writeX _ _).store _ _ _).writeX _ _).writeX _ _).finish _
  | unlink a0 =>
    rw [exec_unlink]
    unfold execUnlink
    refine ordinary_plainOut ?_
    (repeat' split) <;>
      first
        | exact ordinary_unimplemented s
        | exact ordinary_accessing ((((Quiet.refl s).writeX _ _).writeX _ _).writeX _ _).finish _
  | nop a0 =>
    rw [exec_nop]
    unfold execNop
    exact ordinary_plain (Quiet.refl s).finish
  | mand a0 =>
    rw [exec_mand]
    unfold execMand
    exact ordinary_mask ..
  | morMask a0 =>
    rw [exec_morMask]
    unfold execMorMask
    exact ordinary_mask ..
  | mxorMask a0 =>
    rw [exec_mxorMask]
    unfold execMxorMask
    exact ordinary_mask ..
  | madd a0 =>
    rw [exec_madd]
    unfold execMadd
    exact ordinary_mask ..
  | msub a0 =>
    rw [exec_msub]
    unfold execMsub
    exact ordinary_mask ..
  | mnand a0 =>
    rw [exec_mnand]
    unfold execMnand
    exact ordinary_mask ..
  | mnor a0 =>
    rw [exec_mnor]
    unfold execMnor
    exact ordinary_mask ..
  | mxnor a0 =>
    rw [exec_mxnor]
    unfold execMxnor
    exact ordinary_mask ..
  | msll a0 =>
    rw [exec_msll]
    unfold execMsll
    exact ordinary_maskShift ..
  | msrl a0 =>
    rw [exec_msrl]
    unfold execMsrl
    exact ordinary_maskShift ..
  | mfill a0 =>
    rw [exec_mfill]
    unfold execMfill
    exact ordinary_toMask ..
  | mpop a0 =>
    rw [exec_mpop]
    unfold execMpop
    exact ordinary_fromMask ..
  | mfirst a0 =>
    rw [exec_mfirst]
    unfold execMfirst
    exact ordinary_fromMask ..
  | mlast a0 =>
    rw [exec_mlast]
    unfold execMlast
    exact ordinary_fromMask ..
  | mtm a0 =>
    rw [exec_mtm]
    unfold execMtm
    exact ordinary_toMask ..
  | mfm a0 =>
    rw [exec_mfm]
    unfold execMfm
    exact ordinary_fromMask ..
  | mtvl a0 => exact (Bool.false_ne_true h.symm).elim
  | mfvl a0 a1 =>
    rw [exec_mfvl]
    unfold execMfvl
    exact ordinary_fromMask ..
  | jal a0 a1 =>
    rw [exec_jal]
    unfold execJal
    exact ordinary_plain (((Quiet.refl s).writeX _ _).jump _)
  | bal a0 a1 =>
    rw [exec_bal]
    unfold execBal
    exact ordinary_plain (((Quiet.refl s).writeX _ _).jump _)
  | jalr a0 =>
    rw [exec_jalr]
    unfold execJalr
    refine ordinary_plain ?_
    (repeat' split) <;>
      first
        | exact Ordinary.unimplemented s
        | exact ((Quiet.refl s).writeX _ _).jump _
  | fbeq a0 =>
    rw [exec_fbeq]
    unfold execFbeq
    exact ordinary_branch ..
  | fbne a0 =>
    rw [exec_fbne]
    unfold execFbne
    exact ordinary_branch ..
  | blt a0 =>
    rw [exec_blt]
    unfold execBlt
    exact ordinary_branch ..
  | bge a0 =>
    rw [exec_bge]
    unfold execBge
    exact ordinary_branch ..
  | bltu a0 =>
    rw [exec_bltu]
    unfold execBltu
    exact ordinary_branch ..
  | bgeu a0 =>
    rw [exec_bgeu]
    unfold execBgeu
    exact ordinary_branch ..
  | bbs a0 =>
    rw [exec_bbs]
    unfold execBbs
    exact ordinary_branch ..
  | beq a0 =>
    rw [exec_beq]
    unfold execBeq
    exact ordinary_branch ..
  | bne a0 =>
    rw [exec_bne]
    unfold execBne
    exact ordinary_branch ..
  | blank43h => exact ordinary_unimplemented s
  | blank44h => exact ordinary_unimplemented s
  | blank45h => exact ordinary_unimplemented s
  | blank4ch => exact ordinary_unimplemented s
  | exi0 a0 => exact (Bool.false_ne_true h.symm).elim
  | exi1 a0 => exact (Bool.false_ne_true h.symm).elim
  | exi2 a0 => exact (Bool.false_ne_true h.symm).elim
  | exi3 a0 => exact (Bool.false_ne_true h.symm).elim
  | exi4 a0 => exact (Bool.false_ne_true h.symm).elim
  | imod a0 a1 => exact (Bool.false_ne_true h.symm).elim
  | brmod a0 => exact (Bool.false_ne_true h.symm).elim
  | stride a0 a1 => exact (Bool.false_ne_true h.symm).elim
  | reglist a0 => exact (Bool.false_ne_true h.symm).elim
  | ldb a0 =>
    rw [exec_ldb]
    unfold execLdb
    exact ordinary_loadDisp ..
  | ldbIndexed a0 =>
    rw [exec_ldbIndexed]
    unfold execLdbIndexed
    exact ordinary_loadIndexed ..
  | ldw a0 =>
    rw [exec_ldw]
    unfold execLdw
    exact ordinary_loadDisp ..
  | ldwIndexed a0 =>
    rw [exec_ldwIndexed]
    unfold execLdwIndexed
    exact ordinary_loadIndexed ..
  | ldt a0 =>
    rw [exec_ldt]
    unfold execLdt
    exact ordinary_loadDisp ..
  | ldtIndexed a0 =>
    rw [exec_ldtIndexed]
    unfold execLdtIndexed
    exact ordinary_loadIndexed ..
  | ldo a0 =>
    rw [exec_ldo]
    unfold execLdo
    exact ordinary_loadDisp ..
  | ldoIndexed a0 =>
    rw [exec_ldoIndexed]
    unfold execLdoIndexed
    exact ordinary_loadIndexed ..
  | ldbz a0 =>
    rw [exec_ldbz]
    unfold execLdbz
    exact ordinary_loadDisp ..
  | ldbzIndexed a0 =>
    rw [exec_ldbzIndexed]
    unfold execLdbzIndexed
    exact ordinary_loadIndexed ..
  | ldwz a0 =>
    rw [exec_ldwz]
    unfold execLdwz
    exact ordinary_loadDisp ..
  | ldwzIndexed a0 =>
    rw [exec_ldwzIndexed]
    unfold execLdwzIndexed
    exact ordinary_loadIndexed ..
  | ldtz a0 =>
    rw [exec_ldtz]
    unfold execLdtz
    exact ordinary_loadDisp ..
  | ldtzIndexed a0 =>
    rw [exec_ldtzIndexed]
    unfold execLdtzIndexed
    exact ordinary_loadIndexed ..
  | ldoAt64h a0 =>
    rw [exec_ldoAt64h]
    unfold execLdoAt64h
    exact ordinary_loadDisp ..
  | ldoIndexedAt65h a0 =>
    rw [exec_ldoIndexedAt65h]
    unfold execLdoIndexedAt65h
    exact ordinary_loadIndexed ..
  | ldptrAt60h a0 =>
    rw [exec_ldptrAt60h]
    unfold execLdptrAt60h
    exact ordinary_loadDisp ..
  | ldptrAt61h a0 =>
    rw [exec_ldptrAt61h]
    unfold execLdptrAt61h
    exact ordinary_loadIndexed ..
  | ldptrAt64h a0 =>
    rw [exec_ldptrAt64h]
    unfold execLdptrAt64h
    exact ordinary_loadDisp ..
  | ldptrAt65h a0 =>
    rw [exec_ldptrAt65h]
    unfold execLdptrAt65h
    exact ordinary_loadIndexed ..
  | ldmAt60h a0 =>
    rw [exec_ldmAt60h]
    unfold execLdmAt60h
    refine ordinary_plainOut ?_
    (repeat' split) <;>
      first
        | exact ordinary_unimplemented s
        | exact ordinary_accessing (quiet_loadMany _ s).finish _
  | ldmAt61h a0 =>
    rw [exec_ldmAt61h]
    unfold execLdmAt61h
    refine ordinary_plainOut ?_
    (repeat' split) <;>
      first
        | exact ordinary_unimplemented s
        | exact ordinary_accessing (quiet_loadMany _ s).finish _
  | loadFunc4Is4At60h a0 => exact ordinary_unimplemented s
  | loadFunc4Is5At60h a0 => exact ordinary_unimplemented s
  | loadFunc4Is4At61h a0 => exact ordinary_unimplemented s
  | loadFunc4Is5At61h a0 => exact ordinary_unimplemented s
  | loadFunc4Is4At64h a0 => exact ordinary_unimplemented s
  | loadFunc4Is5At64h a0 => exact ordinary_unimplemented s
  | loadFunc4Is4At65h a0 => exact ordinary_unimplemented s
  | loadFunc4Is5At65h a0 => exact ordinary_unimplemented s
  | cache a0 => exact (Bool.false_ne_true h.symm).elim
  | stb a0 =>
    rw [exec_stb]
    unfold execStb
    exact ordinary_storeDisp (quiet_putBytes _) _ s
  | stbIndexed a0 =>
    rw [exec_stbIndexed]
    unfold execStbIndexed
    exact ordinary_storeIndexed (quiet_putBytes _) _ s
  | stw a0 =>
    rw [exec_stw]
    unfold execStw
    exact ordinary_storeDisp (quiet_putBytes _) _ s
  | stwIndexed a0 =>
    rw [exec_stwIndexed]
    unfold execStwIndexed
    exact ordinary_storeIndexed (quiet_putBytes _) _ s
  | stt a0 =>
    rw [exec_stt]
    unfold execStt
    exact ordinary_storeDisp (quiet_putBytes _) _ s
  | sttIndexed a0 =>
    rw [exec_sttIndexed]
    unfold execSttIndexed
    exact ordinary_storeIndexed (quiet_putBytes _) _ s
  | sto a0 =>
    rw [exec_sto]
    unfold execSto
    exact ordinary_storeDisp (quiet_putBytes _) _ s
  | stoIndexed a0 =>
    rw [exec_stoIndexed]
    unfold execStoIndexed
    exact ordinary_storeIndexed (quiet_putBytes _) _ s
  | stptr a0 =>
    rw [exec_stptr]
    unfold execStptr
    exact ordinary_storeDisp (quiet_putPointer) _ s
  | stptrIndexed a0 =>
    rw [exec_stptrIndexed]
    unfold execStptrIndexed
    exact ordinary_storeIndexed (quiet_putPointer) _ s
  | stm a0 =>
    rw [exec_stm]
    unfold execStm
    refine ordinary_plainOut ?_
    (repeat' split) <;>
      first
        | exact ordinary_unimplemented s
        | exact ordinary_accessing (quiet_storeMany _ s).finish _
  | stmIndexed a0 =>
    rw [exec_stmIndexed]
    unfold execStmIndexed
    refine ordinary_plainOut ?_
    (repeat' split) <;>
      first
        | exact ordinary_unimplemented s
        | exact ordinary_accessing (quiet_storeMany _ s).finish _
  | pop a0 =>
    rw [exec_pop]
    unfold execPop
    refine ordinary_plainOut ?_
    (repeat' split) <;>
      first
        | exact ordinary_unimplemented s
        | exact ordinary_accessing (((Quiet.refl s).writeX _ _).writeX _ _).finish _
  | popPair a0 =>
    rw [exec_popPair]
    unfold execPopPair
    refine ordinary_plainOut ?_
    (repeat' split) <;>
      first
        | exact ordinary_unimplemented s
        | exact ordinary_accessing ((((Quiet.refl s).writeX _ _).writeX _ _).writeX _ _).finish _
  | push a0 =>
    rw [exec_push]
    unfold execPush
    refine ordinary_plainOut ?_
    (repeat' split) <;>
      first
        | exact ordinary_unimplemented s
        | exact ordinary_accessing (((Quiet.refl s).writeX _ _).store _ _ _).finish _
  | pushPair a0 =>
    rw [exec_pushPair]
    unfold execPushPair
    refine ordinary_plainOut ?_
    (repeat' split) <;>
      first
        | exact ordinary_unimplemented s
        | exact ordinary_accessing ((((Quiet.refl s).writeX _ _).store _ _ _).store _ _ _).finish _
  | ldsx a0 a1 =>
    rw [exec_ldsx]
    unfold execLdsx
    exact ordinary_vload (fun _ _ _ => ordinary_withStride fun _ => ordinary_loadElements ..) _ _
  | ldxvx a0 a1 =>
    rw [exec_ldxvx]
    unfold execLdxvx
    exact ordinary_vload (fun _ _ _ => ordinary_withIndex fun _ => ordinary_loadElements ..) _ _
  | cvldsx a0 a1 =>
    rw [exec_cvldsx]
    unfold execCvldsx
    exact ordinary_vload (fun _ _ _ => ordinary_withStride fun _ => ordinary_loadCompressed ..) _ _
  | cvldxvx a0 a1 =>
    rw [exec_cvldxvx]
    unfold execCvldxvx
    exact ordinary_vload (fun _ _ _ => ordinary_withIndex fun _ => ordinary_loadCompressed ..) _ _
  | stsx a0 a1 =>
    rw [exec_stsx]
    unfold execStsx
    exact ordinary_vstore (fun _ _ _ => ordinary_withStride fun _ => ordinary_storeElements ..) _ _
  | stxvx a0 a1 =>
    rw [exec_stxvx]
    unfold execStxvx
    exact ordinary_vstore (fun _ _ _ => ordinary_withIndex fun _ => ordinary_storeElements ..) _ _
  | cvstsx a0 a1 =>
    rw [exec_cvstsx]
    unfold execCvstsx
    exact ordinary_vstore (fun _ _ _ => ordinary_withStride fun _ => ordinary_storeCompressed ..) _ _
  | cvstxvx a0 a1 =>
    rw [exec_cvstxvx]
    unfold execCvstxvx
    exact ordinary_vstore (fun _ _ _ => ordinary_withIndex fun _ => ordinary_storeCompressed ..) _ _
  | cRti => exact (Bool.false_ne_true h.symm).elim
  | cPfi =>
    rw [exec_cPfi]
    unfold execCPfi
    exact ordinary_short (ordinary_poll _ (Quiet.refl s).finishShort)
  | cWfi => exact (Bool.false_ne_true h.symm).elim
  | cSync =>
    rw [exec_cSync]
    unfold execCSync
    exact ordinary_short (Quiet.refl s).finishShort
  | cBrk a0 =>
    rw [exec_cBrk]
    unfold execCBrk
    exact ordinary_short ((Quiet.refl s).raises _)
  | cLdoFp a0 a1 =>
    rw [exec_cLdoFp]
    unfold execCLdoFp
    exact ordinary_shortOut (ordinary_accessing ((Quiet.refl s).writeX _ _).finishShort _)
  | cLdoSp a0 a1 =>
    rw [exec_cLdoSp]
    unfold execCLdoSp
    exact ordinary_shortOut (ordinary_accessing ((Quiet.refl s).writeX _ _).finishShort _)
  | cStoFp a0 a1 =>
    rw [exec_cStoFp]
    unfold execCStoFp
    exact ordinary_shortOut (ordinary_accessing ((Quiet.refl s).store _ _ _).finishShort _)
  | cStoSp a0 a1 =>
    rw [exec_cStoSp]
    unfold execCStoSp
    exact ordinary_shortOut (ordinary_accessing ((Quiet.refl s).store _ _ _).finishShort _)
  | cJmp a0 a1 =>
    rw [exec_cJmp]
    unfold execCJmp
    exact ordinary_short (((Quiet.refl s).writeX _ _).jump _)
  | cMov a0 a1 =>
    rw [exec_cMov]
    unfold execCMov
    exact ordinary_short ((Quiet.refl s).writeX _ _).finishShort
  | cAdd a0 a1 =>
    rw [exec_cAdd]
    unfold execCAdd
    exact ordinary_short ((Quiet.refl s).writeX _ _).finishShort
  | cAnd a0 a1 =>
    rw [exec_cAnd]
    unfold execCAnd
    exact ordinary_short ((Quiet.refl s).writeX _ _).finishShort
  | cAddi a0 a1 =>
    rw [exec_cAddi]
    unfold execCAddi
    exact ordinary_short ((Quiet.refl s).writeX _ _).finishShort
  | cAndi a0 a1 =>
    rw [exec_cAndi]
    unfold execCAndi
    exact ordinary_short ((Quiet.refl s).writeX _ _).finishShort
  | cOri a0 a1 =>
    rw [exec_cOri]
    unfold execCOri
    exact ordinary_short ((Quiet.refl s).writeX _ _).finishShort
  | cBeqz a0 a1 =>
    rw [exec_cBeqz]
    unfold execCBeqz
    exact ordinary_short ((Quiet.refl s).jump _)
  | cBnez a0 a1 =>
    rw [exec_cBnez]
    unfold execCBnez
    exact ordinary_short ((Quiet.refl s).jump _)
  | cBal a0 a1 =>
    rw [exec_cBal]
    unfold execCBal
    exact ordinary_short (((Quiet.refl s).writeX _ _).jump _)
  | cLdi a0 a1 =>
    rw [exec_cLdi]
    unfold execCLdi
    exact ordinary_short ((Quiet.refl s).writeX _ _).finishShort
  | cSlli a0 a1 =>
    rw [exec_cSlli]
    unfold execCSlli
    exact ordinary_short ((Quiet.refl s).writeX _ _).finishShort
  | cSrli a0 a1 =>
    rw [exec_cSrli]
    unfold execCSrli
    exact ordinary_short ((Quiet.refl s).writeX _ _).finishShort
  | cSrai a0 a1 =>
    rw [exec_cSrai]
    unfold execCSrai
    exact ordinary_short ((Quiet.refl s).writeX _ _).finishShort
  | cSub a0 a1 =>
    rw [exec_cSub]
    unfold execCSub
    exact ordinary_unimplemented s
  | cOr a0 a1 =>
    rw [exec_cOr]
    unfold execCOr
    exact ordinary_unimplemented s
  | cXor a0 a1 =>
    rw [exec_cXor]
    unfold execCXor
    exact ordinary_unimplemented s
  | cNand a0 a1 =>
    rw [exec_cNand]
    unfold execCNand
    exact ordinary_unimplemented s
  | cNor a0 a1 =>
    rw [exec_cNor]
    unfold execCNor
    exact ordinary_unimplemented s
  | c7chUnlisted => exact ordinary_unimplemented s
  | c7dhReserved => exact ordinary_unimplemented s
  | cLdmSp a0 a1 =>
    rw [exec_cLdmSp]
    unfold execCLdmSp
    exact ordinary_unimplemented s
  | c7fhNoRow => exact ordinary_unimplemented s
  | scalebDecimal a0 a1 => exact ordinary_unimplemented s
  | cpysgnDecimal a0 a1 =>
    rw [exec_cpysgnDecimal]
    unfold execCpysgnDecimal
    exact ordinary_unimplemented s
  | sgninvDecimal a0 a1 => exact ordinary_unimplemented s
  | sgnandDecimal a0 a1 => exact ordinary_unimplemented s
  | sgnorDecimal a0 a1 => exact ordinary_unimplemented s
  | sgnxorDecimal a0 a1 => exact ordinary_unimplemented s
  | sgnxnorDecimal a0 a1 => exact ordinary_unimplemented s
  | fclassDecimal a0 a1 => exact ordinary_unimplemented s
  | loadFunc4Is13At64h a0 => exact ordinary_unimplemented s
  | loadFunc4Is13At65h a0 => exact ordinary_unimplemented s
  | c74hReserved => exact ordinary_unimplemented s

end Sys2Proof.Machine
end

