-- ==== Sys2Proof/Laws/Fp.lean ====
section
/-! SUPPORT. Binary64 patterns: fields, sign operations, and the order of patterns as the order of the numbers. -/

namespace Sys2Proof.Machine

theorem getLsbD_63 (a : Word) : (a.extractLsb' 63 1 = 1#1) = (a.getLsbD 63 = true) := by
  rw [eq_iff_iff]
  constructor
  · intro h
    have := congrArg (·.getLsbD 0) h
    simpa using this
  · intro h
    apply BitVec.eq_of_getLsbD_eq
    intro i hi
    obtain rfl : i = 0 := by omega
    simpa using h

/-- The fields of a binary64 pattern: its magnitude is the exponent field above the fraction. -/
theorem fpMag_fields (a : Word) :
    fpMag a = (a.extractLsb' 52 11).toNat * 2 ^ 52 + (a.extractLsb' 0 52).toNat ∧
      (a.extractLsb' 0 52).toNat < 2 ^ 52 ∧ (a.extractLsb' 52 11).toNat < 2 ^ 11 := by
  refine ⟨?_, (a.extractLsb' 0 52).isLt, (a.extractLsb' 52 11).isLt⟩
  unfold fpMag
  have := a.isLt
  simp only [BitVec.extractLsb'_toNat, Nat.shiftRight_eq_div_pow]
  omega

theorem fpIsNan_iff (a : Word) :
    fpIsNan a = true ↔ a.extractLsb' 52 11 = 0x7ff#11 ∧ a.extractLsb' 0 52 ≠ 0#52 := by
  obtain ⟨h1, h2, h3⟩ := fpMag_fields a
  unfold fpIsNan
  rw [decide_eq_true_iff, ← BitVec.toNat_inj, ne_eq, ← BitVec.toNat_inj, h1]
  simp only [BitVec.toNat_ofNat]
  omega

/-- The value of a magnitude in units of 2^-1074. -/
def fpMagUnits (m : Nat) : Nat :=
  if m / 2 ^ 52 = 0 then m % 2 ^ 52 else (2 ^ 52 + m % 2 ^ 52) * 2 ^ (m / 2 ^ 52 - 1)

theorem fpMagUnits_lt {m n : Nat} (h : m < n) : fpMagUnits m < fpMagUnits n := by
  unfold fpMagUnits
  have hm : m % 2 ^ 52 < 2 ^ 52 := Nat.mod_lt _ (by positivity)
  have hdm := Nat.div_add_mod m (2 ^ 52)
  have hdn := Nat.div_add_mod n (2 ^ 52)
  have hle : m / 2 ^ 52 ≤ n / 2 ^ 52 := Nat.div_le_div_right h.le
  generalize m / 2 ^ 52 = d at *
  generalize m % 2 ^ 52 = f at *
  generalize n / 2 ^ 52 = e at *
  generalize n % 2 ^ 52 = g at *
  rcases hle.eq_or_lt with rfl | hlt
  · have hfg : f < g := by omega
    split
    · exact hfg
    · exact Nat.mul_lt_mul_of_pos_right (by omega) (by positivity)
  · have he : ¬e = 0 := by omega
    rw [if_neg he]
    have h1 : 2 ^ 52 * 2 ^ (e - 1) ≤ (2 ^ 52 + g) * 2 ^ (e - 1) := Nat.mul_le_mul_right _ (by omega)
    split
    · have h2 : 1 ≤ 2 ^ (e - 1) := Nat.one_le_two_pow
      have h3 : 2 ^ 52 * 1 ≤ 2 ^ 52 * 2 ^ (e - 1) := Nat.mul_le_mul_left _ h2
      omega
    · have h4 : (2 ^ 52 + f) * 2 ^ (d - 1) < (2 ^ 52 + 2 ^ 52) * 2 ^ (d - 1) :=
        Nat.mul_lt_mul_of_pos_right (by omega) (by positivity)
      have h5 : (2 ^ 52 + 2 ^ 52) * 2 ^ (d - 1) = 2 ^ 52 * 2 ^ d := by
        have : 2 ^ d = 2 ^ (d - 1) * 2 := by rw [← pow_succ]; congr; omega
        rw [this]; ring
      have h6 : 2 ^ 52 * 2 ^ d ≤ 2 ^ 52 * 2 ^ (e - 1) :=
        Nat.mul_le_mul_left _ (Nat.pow_le_pow_right (by omega) (by omega))
      omega

theorem fpMagUnits_lt_iff (m n : Nat) : fpMagUnits m < fpMagUnits n ↔ m < n := by
  constructor
  · intro h
    by_contra hc
    rcases (not_lt.1 hc).eq_or_lt with rfl | h'
    · omega
    · have := fpMagUnits_lt h'
      omega
  · exact fpMagUnits_lt

/-- The order of two signed magnitudes is that of the numbers. -/
theorem fp_order (s t : Bool) (m n : Nat) :
    let k (s : Bool) (m : Nat) : Int := if s then -(m : Int) else m
    (k s (fpMagUnits m) < k t (fpMagUnits n) ↔ k s m < k t n) ∧
      (k s (fpMagUnits m) = k t (fpMagUnits n) ↔ k s m = k t n) := by
  have h1 := fpMagUnits_lt_iff m n
  have h2 := fpMagUnits_lt_iff n m
  have h3 := fpMagUnits_lt_iff 0 m
  have h4 := fpMagUnits_lt_iff 0 n
  have h0 : fpMagUnits 0 = 0 := rfl
  rw [h0] at h3 h4
  cases s <;> cases t <;> simp only [if_true, if_false, Bool.false_eq_true] <;> constructor <;> omega

theorem getLsbD_flag (c : Bool) (n k : Nat) (hn : n < 64) :
    (if c then 1#64 <<< n else 0#64).getLsbD k = (c && decide (k = n)) := by
  cases c
  · simp
  · by_cases h : k = n
    · subst h; simp [hn]
    · have : (1#64 <<< n).getLsbD k = false := by
        rw [BitVec.getLsbD_shiftLeft, BitVec.getLsbD_one]
        simp
        omega
      simp [this, h]

theorem getLsbD_sign (b : BitVec 1) (m : BitVec 63) (i : Nat) :
    (b ++ m).getLsbD i = if i < 63 then m.getLsbD i else b.getLsbD (i - 63) := BitVec.getLsbD_append

theorem signClear_eq (a : Word) : signClear a = 0#1 ++ a.extractLsb' 0 63 := by
  apply BitVec.eq_of_getLsbD_eq
  intro i hi
  refine Eq.trans ?_ (getLsbD_sign _ _ i).symm
  rw [signClear, BitVec.getLsbD_and, show 0x7fffffffffffffff#64 = BitVec.ofNat 64 (2 ^ 63 - 1) from rfl,
    getLsbD_lowMask _ _ (by decide)]
  by_cases h : i < 63 <;> simp [h]

theorem signSet_eq (a : Word) : signSet a = 1#1 ++ a.extractLsb' 0 63 := by
  apply BitVec.eq_of_getLsbD_eq
  intro i hi
  refine Eq.trans ?_ (getLsbD_sign _ _ i).symm
  rw [signSet, BitVec.getLsbD_or, show 0x8000000000000000#64 = if true then 1#64 <<< 63 else 0#64 from rfl,
    getLsbD_flag _ _ _ (by decide)]
  by_cases h : i < 63
  · have : ¬i = 63 := by omega
    simp [h, this]
  · obtain rfl : i = 63 := by omega
    simp

theorem signFlip_eq (a : Word) : signFlip a = ~~~(a.extractLsb' 63 1) ++ a.extractLsb' 0 63 := by
  apply BitVec.eq_of_getLsbD_eq
  intro i hi
  refine Eq.trans ?_ (getLsbD_sign _ _ i).symm
  rw [signFlip, BitVec.getLsbD_xor, show 0x8000000000000000#64 = if true then 1#64 <<< 63 else 0#64 from rfl,
    getLsbD_flag _ _ _ (by decide)]
  by_cases h : i < 63
  · have : ¬i = 63 := by omega
    simp [h, this]
  · obtain rfl : i = 63 := by omega
    simp

theorem isnan_eq (a : Word) : Word.ofBool (fpIsNan a) =
    if a.extractLsb' 52 11 = 0x7ff#11 ∧ a.extractLsb' 0 52 ≠ 0#52 then 1#64 else 0#64 := by
  unfold Word.ofBool
  simp only [fpIsNan_iff]

theorem finite_eq (a : Word) : Word.ofBool (fpIsFinite a) =
    if a.extractLsb' 52 11 = 0x7ff#11 then 0#64 else 1#64 := by
  obtain ⟨h1, h2, h3⟩ := fpMag_fields a
  have h : fpIsFinite a = true ↔ ¬a.extractLsb' 52 11 = 0x7ff#11 := by
    unfold fpIsFinite
    rw [decide_eq_true_iff, ← BitVec.toNat_inj, h1]
    simp only [BitVec.toNat_ofNat]
    omega
  unfold Word.ofBool
  simp only [h]
  by_cases hx : a.extractLsb' 52 11 = 0x7ff#11 <;> simp [hx]

theorem fpKey_eq (a : Word) : fpKey a = if a.getLsbD 63 then -(fpMag a : Int) else fpMag a := by
  unfold fpKey
  simp only [getLsbD_63]

end Sys2Proof.Machine
end

