-- ==== Sys2Proof/Laws/System.lean ====
section
/-! SUPPORT. Privilege, interrupts and queues. -/

namespace Sys2Proof.Machine

theorem getLsbD_extract_bit {w : Nat} (a : BitVec w) (k : Nat) :
    (a.extractLsb' k 1 = 1#1) = (a.getLsbD k = true) := by
  rw [eq_iff_iff]
  constructor
  · intro h
    have := congrArg (·.getLsbD 0) h
    simpa using this
  · intro h
    apply BitVec.eq_of_getLsbD_eq
    intro i hi
    obtain rfl : i = 0 := by omega
    simpa using h

/-! ### Privilege -/

theorem State.ie_eq (s : State) : s.ie = s.pmstack.getLsbD 0 := by
  show ((s.pmstack.extractLsb' 0 4).extractLsb' 0 1 == 1#1) = _
  rw [Bool.eq_iff_iff, beq_iff_eq, getLsbD_extract_bit]
  simp

theorem Mode.index_ofField (t : BitVec 2) : (Mode.ofField t).index.val = t.toNat := by
  revert t
  decide

theorem State.mode_eq (s : State) :
    s.mode.index.val = if s.pmstack.getLsbD 3 then 4 else (s.pmstack.extractLsb' 1 2).toNat := by
  show (if (s.pmstack.extractLsb' 0 4).extractLsb' 3 1 = 1#1 then Mode.debug
    else Mode.ofField ((s.pmstack.extractLsb' 0 4).extractLsb' 1 2)).index.val = _
  have h1 : ((s.pmstack.extractLsb' 0 4).extractLsb' 3 1 = 1#1) = (s.pmstack.getLsbD 3 = true) := by
    rw [getLsbD_extract_bit]
    simp
  have h2 : (s.pmstack.extractLsb' 0 4).extractLsb' 1 2 = s.pmstack.extractLsb' 1 2 := by
    apply BitVec.eq_of_getLsbD_eq
    intro i hi
    interval_cases i <;> simp
  rw [h2]
  simp only [h1]
  split
  · rfl
  · exact Mode.index_ofField _

/-- The privilege stack after an exception: the new entry is 1010b, over the old one. -/
theorem pushed_entries (p : Word) :
    (p <<< 4 ||| 0xa#64).extractLsb' 0 4 = 0xa#4 ∧ (p <<< 4 ||| 0xa#64).extractLsb' 4 4 = p.extractLsb' 0 4 := by
  constructor <;>
  · apply BitVec.eq_of_getLsbD_eq
    intro i hi
    interval_cases i <;> simp

theorem IrqSample.word_eq (q : IrqSample) :
    q.word = q.level.setWidth 64 <<< 8 ||| q.cause.setWidth 64 := by
  unfold IrqSample.word
  apply BitVec.eq_of_getLsbD_eq
  intro i hi
  rw [BitVec.getLsbD_setWidth, BitVec.getLsbD_append, BitVec.getLsbD_or, BitVec.getLsbD_shiftLeft]
  by_cases h : i < 8
  · simp [h, hi]
  · have : q.cause.getLsbD i = false := BitVec.getLsbD_of_ge _ _ (by omega)
    have h2 : i - 8 < 64 := by omega
    simp [h, hi, this, h2]

theorem mode_field (tm : BitVec 2) :
    (∀ i < 4, (0#1 ++ tm ++ 0#1 : BitVec 4).getLsbD i =
      (!(0xf#64).getLsbD i || (tm.setWidth 64 <<< 1).getLsbD i)) ∧
    ∀ i < 4, (0xf#64).getLsbD i = true := by
  revert tm
  decide

theorem redirect_entry (p : Word) (tm : BitVec 2) :
    p.extractLsb' 4 60 ++ (0#1 ++ tm ++ 0#1) = (p &&& ~~~0xf#64) ||| (tm.setWidth 64 <<< 1) := by
  apply BitVec.eq_of_getLsbD_eq
  intro i hi
  refine BitVec.getLsbD_append.trans ?_
  rw [BitVec.getLsbD_or, BitVec.getLsbD_and, BitVec.getLsbD_not]
  by_cases h : i < 4
  · have h1 := (mode_field tm).1 i h
    have h2 := (mode_field tm).2 i h
    rw [if_pos h, h1, h2]
    simp
  · rw [if_neg h]
    have h1 : (0xf#64).getLsbD i = false := by
      rw [show 0xf#64 = BitVec.ofNat 64 (2 ^ 4 - 1) from rfl, getLsbD_lowMask _ _ (by decide)]
      simpa using h
    have h2 : tm.getLsbD (i - 1) = false := BitVec.getLsbD_of_ge _ _ (by omega)
    have h3 : 4 + (i - 4) = i := by omega
    have h4 : i - 4 < 60 := by omega
    rw [BitVec.getLsbD_shiftLeft, BitVec.getLsbD_setWidth, BitVec.getLsbD_extractLsb', h1, h2, h3]
    simp [h4, show i < 64 by omega]

/-! ### Queues -/

theorem State.queueTop_eq (s : State) (q : QueueNo) : s.queueTop q = (s.queue q)[0]?.getD 0#64 := by
  show (s.queue q).headD 0#64 = _
  cases s.queue q <;> rfl

theorem queueNumber_eq {q : QueueNo} {a : Word} (h : q.val = a.toNat % 64) : queueNumber a.toNat = q :=
  Fin.ext h.symm

/-- Qno6 names the queue of that number. -/
theorem queueNumber_toNat (q : BitVec 6) : queueNumber q.toNat = (⟨q.toNat, q.isLt⟩ : QueueNo) :=
  Fin.ext (Nat.mod_eq_of_lt q.isLt)

theorem State.queueStatus_eq (s : State) (q : QueueNo) (h : (s.queue q).length ≤ 1023) :
    s.queueStatus q = BitVec.ofBool (s.queue q == []) ++ BitVec.ofBool (s.queue q != []) ++
      BitVec.ofNat 62 (s.queue q).length := by
  unfold State.queueStatus
  dsimp only
  rw [min_eq_left h]
  generalize s.queue q = l at h ⊢
  cases l with
  | nil => decide
  | cons x l =>
    generalize hn : (x :: l).length = n at h ⊢
    have h0 : n ≠ 0 := by
      rw [← hn]
      simp
    rw [if_neg h0]
    apply BitVec.eq_of_getLsbD_eq
    intro i hi
    refine Eq.trans ?_ (BitVec.getLsbD_append (x := BitVec.ofBool ((x :: l) == []) ++ BitVec.ofBool ((x :: l) != []))).symm
    have e1 : ((x :: l) == []) = false := rfl
    have e2 : ((x :: l) != []) = true := rfl
    rw [e1, e2, BitVec.getLsbD_or, BitVec.getLsbD_ofNat, BitVec.getLsbD_ofNat,
      show 1#64 <<< 62 = if true then 1#64 <<< 62 else 0#64 from rfl, getLsbD_flag _ _ _ (by decide)]
    by_cases hi2 : i < 62
    · have : ¬i = 62 := by omega
      simp [hi, hi2, this]
    · have hb : n.testBit i = false := Nat.testBit_lt_two_pow (lt_of_le_of_lt h
        (lt_of_lt_of_le (show 1023 < 2 ^ 62 by decide) (Nat.pow_le_pow_right (by omega) (by omega))))
      have : i = 62 ∨ i = 63 := by omega
      rcases this with rfl | rfl <;> simp [hb]

theorem queues_set (s : State) (q : QueueNo) (l : List Word) (p : QueueNo) :
    (s.queues.set q l)[p] = if p = q then l else s.queues[p] := by
  rw [Fin.getElem_fin, Vector.getElem_set, Fin.getElem_fin]
  simp only [Fin.val_inj, eq_comm]

/-- A push appends to a queue that is not full and changes nothing else. -/
theorem State.pushQueue_eq (s : State) (q : QueueNo) (a : Word) :
    s.pushQueue q a =
      { s with queues := if (s.queue q).length < 1023 then s.queues.set q (s.queue q ++ [a]) else s.queues } := by
  have hz : Word.zextLow Config.default.queueWidth a = a := by simp [Word.zextLow]
  unfold State.pushQueue
  rw [hz]
  by_cases h : (s.queue q).length < 1023
  · rw [if_pos (show _ < Config.default.queueDepth from h), if_pos h]
    rfl
  · rw [if_neg (show ¬_ < Config.default.queueDepth from h), if_neg h]

end Sys2Proof.Machine
end

