-- ==== Sys2Proof/Laws/Changes.lean ====
section
/-! SUPPORT. Which special registers, queues and lists each instruction may change, and that the rest of the well-formedness is kept. -/

namespace Sys2Proof.Machine

/-- The well-formed states but for the pending modifiers. -/
structure State.sound (s : State) : Prop where
  mem : Memory.wf s.mem = true
  imem : Memory.wf s.imem = true
  csr : sparseWf 0 65536 s.csr = true
  tlb : sparseWf 0 4096 s.tlb = true
  vl : s.vl.toNat ≤ Config.default.vlmax
  queues : ∀ q : QueueNo, (s.queue q).length ≤ Config.default.queueDepth
  coeff : ∀ k : Fin 13, (s.coeff[k]).toNat < 2 ^ 32

theorem State.wf_iff (s : State) : s.wf ↔ s.sound ∧ s.mods.wf :=
  ⟨fun h => ⟨⟨h.1, h.2, h.3, h.4, h.5, h.6, h.7⟩, h.8⟩, fun h => ⟨h.1.1, h.1.2, h.1.3, h.1.4, h.1.5, h.1.6, h.1.7, h.2⟩⟩

/-- The privilege stack changes by an exception, a return or a redirection. -/
def PmChange (s t : State) : Prop :=
  t.pmstack = s.pmstack ∨ t.pmstack = s.pmstack <<< 4 ||| 0xa#64 ∨ t.pmstack = s.pmstack >>> 4 ∨
    ∃ tm : BitVec 2, tm.toNat < s.mode.index.val ∧
      t.pmstack = (s.pmstack &&& ~~~0xf#64) ||| (tm.setWidth 64 <<< 1)

/-- What instruction `i` changes at most outside x, v, vm, memory and the exception registers. -/
structure Changes (i : Instr) (s t : State) : Prop where
  tvec : t.tvec = s.tvec
  irqLines : t.irqLines = s.irqLines
  vl : (∀ a, i ≠ .mtvl a) → t.vl = s.vl
  tlb : (∀ o, i ≠ .tlbrw o) → t.tlb = s.tlb
  coeff : (∀ o, i ≠ .rwCoeff o) → t.coeff = s.coeff
  plotLog : (∀ v o, i ≠ .plot v o) → t.plotLog = s.plotLog
  imem : (∀ o, i ≠ .cache o) → t.imem = s.imem ∧ t.dcacheEnable = s.dcacheEnable
  csr : (∀ o, i ≠ .csrrw o) → (∀ o, i ≠ .csrrs o) → (∀ o, i ≠ .csrrc o) → t.csr = s.csr
  semaphore : (∀ b o, i ≠ .rte b o) → i ≠ .cRti → t.semaphore = s.semaphore
  queues : (∀ b a, i ≠ .pushq b a) → (∀ q a, i ≠ .pushqi q a) → (∀ a r, i ≠ .popq a r) →
    (∀ q r, i ≠ .popqi q r) → t.queues = s.queues
  badaddr : (∀ m, i ≠ .rex m) → t.badaddr = s.badaddr
  pmstack : PmChange s t
  sound : s.sound → t.sound

theorem Quiet.sound {s q : State} (h : Quiet s q) (w : s.sound) : q.sound :=
  ⟨h.mem w.mem, h.imem ▸ w.imem, h.csr ▸ w.csr, h.tlb ▸ w.tlb, h.vl ▸ w.vl,
    fun k => by unfold State.queue; rw [h.queues]; exact w.queues k,
    fun k => by rw [show q.coeff = s.coeff from h.coeff]; exact w.coeff k⟩

theorem Quiet.changes {s q : State} (h : Quiet s q) (i : Instr) : Changes i s q :=
  ⟨h.tvec, h.irqLines, fun _ => h.vl, fun _ => h.tlb, fun _ => h.coeff, fun _ => h.plotLog,
    fun _ => ⟨h.imem, h.dcacheEnable⟩, fun _ _ _ => h.csr, fun _ _ => h.semaphore, fun _ _ _ _ => h.queues,
    fun _ => h.badaddr, .inl h.pmstack, h.sound⟩

theorem Changes.jump {i : Instr} {s q : State} (h : Changes i s q) (a : Word) : Changes i s (q.jump a) :=
  ⟨h.1, h.2, h.3, h.4, h.5, h.6, h.7, h.8, h.9, h.10, h.11, h.12, fun w =>
    ⟨(h.sound w).1, (h.sound w).2, (h.sound w).3, (h.sound w).4, (h.sound w).5, (h.sound w).6, (h.sound w).7⟩⟩

theorem Changes.finish {i : Instr} {s q : State} (h : Changes i s q) : Changes i s q.finish := h.jump _

theorem Changes.writeX {i : Instr} {s q : State} (h : Changes i s q) (r : BitVec 5) (a : Word) :
    Changes i s (q.writeX r a) := by
  unfold State.writeX
  split
  · exact h
  · exact ⟨h.1, h.2, h.3, h.4, h.5, h.6, h.7, h.8, h.9, h.10, h.11, h.12, fun w =>
      ⟨(h.sound w).1, (h.sound w).2, (h.sound w).3, (h.sound w).4, (h.sound w).5, (h.sound w).6, (h.sound w).7⟩⟩

/-- A next state that only pushes the privilege stack changes nothing else that is special. -/
theorem Ordinary.changes {s t : State} (h : Ordinary s t) (i : Instr) : Changes i s t := by
  obtain ⟨q, h, ⟨a, rfl⟩ | ⟨c, rfl⟩⟩ := h
  · exact (h.changes i).jump a
  · exact ⟨h.tvec, h.irqLines, fun _ => h.vl, fun _ => h.tlb, fun _ => h.coeff, fun _ => h.plotLog,
      fun _ => ⟨h.imem, h.dcacheEnable⟩, fun _ _ _ => h.csr, fun _ _ => h.semaphore, fun _ _ _ _ => h.queues,
      fun _ => h.badaddr, .inr (.inl (by rw [← h.pmstack]; rfl)), fun w =>
        ⟨(h.sound w).1, (h.sound w).2, (h.sound w).3, (h.sound w).4, (h.sound w).5, (h.sound w).6, (h.sound w).7⟩⟩

theorem Ordinary.mods {s t : State} (h : Ordinary s t) : t.mods = Mods.none := by
  obtain ⟨q, h, ⟨a, rfl⟩ | ⟨c, rfl⟩⟩ := h <;> rfl

/-- The outcome is a next state in which `i` changed what it may. -/
def Out.Changes (i : Instr) (s : State) (r : Out) : Prop := ∃ t, r = .next t ∧ Machine.Changes i s t ∧ t.mods = Mods.none

theorem changes_ordinary {i : Instr} {s : State} {r : Out} (h : Out.Ordinary s r) : Out.Changes i s r := by
  obtain ⟨t, rfl, h⟩ := h
  exact ⟨t, rfl, h.changes i, h.mods⟩

theorem changes_plain {i : Instr} {v : Bool} {s t : State} (h : Changes i s t) (hm : t.mods = Mods.none) :
    Out.Changes i s (plain v s t) := by
  unfold plain plainOut
  split
  · exact changes_ordinary (ordinary_unimplemented s)
  · exact ⟨t, rfl, h, hm⟩

theorem changes_plainMask {i : Instr} {s t : State} (h : Changes i s t) (hm : t.mods = Mods.none) :
    Out.Changes i s (plainMask s t) := by
  unfold plainMask
  split
  · exact changes_ordinary (ordinary_unimplemented s)
  · exact ⟨t, rfl, h, hm⟩

theorem changes_short {i : Instr} {s t : State} (h : Changes i s t) (hm : t.mods = Mods.none) :
    Out.Changes i s (short s t) := by
  unfold short shortOut
  split
  · exact changes_ordinary (ordinary_unimplemented s)
  · exact ⟨t, rfl, h, hm⟩

theorem changes_plain_ordinary {i : Instr} {v : Bool} {s t : State} (h : Ordinary s t) : Out.Changes i s (plain v s t) :=
  changes_ordinary (ordinary_plain h)

/-! ### The writers -/

theorem changes_vl (a : RSpec) (s : State) (b : Word) (hb : b.toNat ≤ 64) : Changes (.mtvl a) s { s with vl := b } :=
  ⟨rfl, rfl, fun h => absurd rfl (h _), fun _ => rfl, fun _ => rfl, fun _ => rfl, fun _ => ⟨rfl, rfl⟩,
    fun _ _ _ => rfl, fun _ _ => rfl, fun _ _ _ _ => rfl, fun _ => rfl, .inl rfl,
    fun w => ⟨w.1, w.2, w.3, w.4, hb, w.6, w.7⟩⟩

theorem changes_tlb (o : R2) (s : State) (l : List (Nat × Word)) (hl : sparseWf 0 4096 s.tlb = true → sparseWf 0 4096 l = true) :
    Changes (.tlbrw o) s { s with tlb := l } :=
  ⟨rfl, rfl, fun _ => rfl, fun h => absurd rfl (h _), fun _ => rfl, fun _ => rfl, fun _ => ⟨rfl, rfl⟩,
    fun _ _ _ => rfl, fun _ _ => rfl, fun _ _ _ _ => rfl, fun _ => rfl, .inl rfl,
    fun w => ⟨w.1, w.2, w.3, hl w.4, w.5, w.6, w.7⟩⟩

theorem changes_coeff (o : R2) (s : State) (cf : Vector Word 13)
    (hc : (∀ k : Fin 13, (s.coeff[k]).toNat < 2 ^ 32) → ∀ k : Fin 13, (cf[k]).toNat < 2 ^ 32) :
    Changes (.rwCoeff o) s { s with coeff := cf } :=
  ⟨rfl, rfl, fun _ => rfl, fun _ => rfl, fun h => absurd rfl (h _), fun _ => rfl, fun _ => ⟨rfl, rfl⟩,
    fun _ _ _ => rfl, fun _ _ => rfl, fun _ _ _ _ => rfl, fun _ => rfl, .inl rfl,
    fun w => ⟨w.1, w.2, w.3, w.4, w.5, w.6, hc w.7⟩⟩

theorem changes_plot (v : Bool) (o : R2) (s : State) (l : List (Word × BitVec 32)) :
    Changes (.plot v o) s { s with plotLog := l } :=
  ⟨rfl, rfl, fun _ => rfl, fun _ => rfl, fun _ => rfl, fun h => absurd rfl (h _ _), fun _ => ⟨rfl, rfl⟩,
    fun _ _ _ => rfl, fun _ _ => rfl, fun _ _ _ _ => rfl, fun _ => rfl, .inl rfl,
    fun w => ⟨w.1, w.2, w.3, w.4, w.5, w.6, w.7⟩⟩

theorem changes_fetch (o : CacheOps) (s : State) (m : List Host.Cell) (d : Bool)
    (hm : Memory.wf s.mem = true → Memory.wf s.imem = true → Memory.wf m = true) :
    Changes (.cache o) s { s with imem := m, dcacheEnable := d } :=
  ⟨rfl, rfl, fun _ => rfl, fun _ => rfl, fun _ => rfl, fun _ => rfl, fun h => absurd rfl (h _),
    fun _ _ _ => rfl, fun _ _ => rfl, fun _ _ _ _ => rfl, fun _ => rfl, .inl rfl,
    fun w => ⟨w.1, hm w.1 w.2, w.3, w.4, w.5, w.6, w.7⟩⟩

theorem changes_csr {i : Instr} (o : Csr) (hi : i = .csrrw o ∨ i = .csrrs o ∨ i = .csrrc o) (s : State)
    (n : BitVec 16) (a : Word) : Changes i s { s with csr := sparseSet s.csr n.toNat a } :=
  ⟨rfl, rfl, fun _ => rfl, fun _ => rfl, fun _ => rfl, fun _ => rfl, fun _ => ⟨rfl, rfl⟩,
    fun h1 h2 h3 => hi.elim (fun e => absurd e (h1 o)) fun h => h.elim (fun e => absurd e (h2 o)) fun e => absurd e (h3 o),
    fun _ _ => rfl, fun _ _ _ _ => rfl, fun _ => rfl, .inl rfl,
    fun w => ⟨w.1, w.2, sparseSet_wf _ _ _ _ _ w.3 (by omega) n.isLt, w.4, w.5, w.6, w.7⟩⟩

theorem changes_return {i : Instr} (hi : (∃ b o, i = .rte b o) ∨ i = .cRti) (s : State) (b a : Word) :
    Changes i s (s.returnExc b a) :=
  ⟨rfl, rfl, fun _ => rfl, fun _ => rfl, fun _ => rfl, fun _ => rfl, fun _ => ⟨rfl, rfl⟩, fun _ _ _ => rfl,
    fun h1 h2 => hi.elim (fun ⟨_, _, e⟩ => absurd e (h1 _ _)) fun e => absurd e h2,
    fun _ _ _ _ => rfl, fun _ => rfl, .inr (.inr (.inl rfl)),
    fun w => ⟨w.1, w.2, w.3, w.4, w.5, w.6, w.7⟩⟩

theorem changes_queues {i : Instr} (hi : (∃ b a, i = .pushq b a) ∨ (∃ q a, i = .pushqi q a) ∨ (∃ a r, i = .popq a r) ∨ ∃ q r, i = .popqi q r)
    (s : State) (qs : Vector (List Word) Config.default.nqueue) (hq : s.sound → ∀ q : QueueNo, (qs[q]).length ≤ Config.default.queueDepth) :
    Changes i s { s with queues := qs } :=
  ⟨rfl, rfl, fun _ => rfl, fun _ => rfl, fun _ => rfl, fun _ => rfl, fun _ => ⟨rfl, rfl⟩, fun _ _ _ => rfl,
    fun _ _ => rfl, fun h1 h2 h3 h4 => by
      rcases hi with ⟨_, _, e⟩ | ⟨_, _, e⟩ | ⟨_, _, e⟩ | ⟨_, _, e⟩
      exacts [absurd e (h1 _ _), absurd e (h2 _ _), absurd e (h3 _ _), absurd e (h4 _ _)],
    fun _ => rfl, .inl rfl, fun w => ⟨w.1, w.2, w.3, w.4, w.5, hq w, w.7⟩⟩

theorem changes_redirect (tm : BitVec 2) (s : State) (h : tm.toNat < s.mode.index.val) :
    Changes (.rex tm) s (s.redirect tm) :=
  ⟨rfl, rfl, fun _ => rfl, fun _ => rfl, fun _ => rfl, fun _ => rfl, fun _ => ⟨rfl, rfl⟩, fun _ _ _ => rfl,
    fun _ _ => rfl, fun _ _ _ _ => rfl, fun h => absurd rfl (h _),
    .inr (.inr (.inr ⟨tm, h, redirect_entry s.pmstack tm⟩)),
    fun w => ⟨w.1, w.2, w.3, w.4, w.5, w.6, w.7⟩⟩

theorem changes_push {i : Instr} (hi : (∃ b a, i = .pushq b a) ∨ (∃ q a, i = .pushqi q a) ∨ (∃ a r, i = .popq a r) ∨ ∃ q r, i = .popqi q r)
    (s : State) (q : QueueNo) (a : Word) : Changes i s (s.pushQueue q a) := by
  rw [State.pushQueue_eq]
  refine changes_queues hi s _ fun w p => ?_
  split
  · rename_i h
    rw [queues_set]
    split
    · rw [List.length_append]
      exact h
    · exact w.queues p
  · exact w.queues p

theorem changes_pop {i : Instr} (hi : (∃ b a, i = .pushq b a) ∨ (∃ q a, i = .pushqi q a) ∨ (∃ a r, i = .popq a r) ∨ ∃ q r, i = .popqi q r)
    (s : State) (q : QueueNo) : Changes i s (s.popQueue q) := by
  refine changes_queues hi s (s.queues.set q (s.queue q).tail) fun w p => ?_
  rw [queues_set]
  split
  · rw [List.length_tail]
    have := w.queues q
    omega
  · exact w.queues p

theorem changes_popInto {i : Instr} (hi : (∃ b a, i = .pushq b a) ∨ (∃ q a, i = .pushqi q a) ∨ (∃ a r, i = .popq a r) ∨ ∃ q r, i = .popqi q r)
    (s : State) (q : QueueNo) (t : RSpec) : Changes i s (popInto q t s) ∧ (popInto q t s).mods = Mods.none := by
  unfold popInto
  split
  · exact ⟨((changes_pop hi s q).writeX _ _).finish, rfl⟩
  · exact ⟨(Ordinary.unimplemented s).changes i, rfl⟩

theorem changes_csrAccess {i : Instr} (o : Csr) (hi : i = .csrrw o ∨ i = .csrrs o ∨ i = .csrrc o) (s : State)
    (new : Word → Option Word) : Out.Changes i s (csrAccess o new s) := by
  unfold csrAccess
  split
  · exact changes_plain_ordinary ((Quiet.refl s).raises _)
  · dsimp only
    split
    · exact changes_plain_ordinary ((Quiet.refl s).writeX _ _).finish
    · exact changes_plain ((changes_csr o hi s _ _).writeX _ _).finish rfl

theorem clampVl_le (a : Word) : (clampVl a).toNat ≤ 64 := by
  unfold clampVl
  split
  · decide
  · omega

/-- The instructions that are left out below: modifiers, the waits, and those that run another word. -/
def isOpen : Instr → Bool
  | .exi0 _ | .exi1 _ | .exi2 _ | .exi3 _ | .exi4 _ | .imod _ _ | .brmod _ | .stride _ _ | .reglist _
  | .wfi | .cWfi | .exec _ | .myst _ | .mystImmediate _ => true
  | _ => false

theorem exec_changes_special (i : Instr) (s : State) (h : isSpecial i = true) (ho : isOpen i = false) :
    Out.Changes i s (exec i s) := by
  have U {i : Instr} {v : Bool} : Out.Changes i s (plain v s s.unimplemented) :=
    changes_plain_ordinary (Ordinary.unimplemented s)
  cases i
  case mtvl a =>
    rw [exec_mtvl]; unfold execMtvl
    cases a
    · exact changes_plainMask (changes_vl _ s _ (clampVl_le _)).finish rfl
    · exact changes_ordinary (ordinary_plainMask (Ordinary.unimplemented s))
  case tlbrw o =>
    rw [exec_tlbrw]; unfold execTlbrw
    split
    · dsimp only
      split
      · refine changes_plain ((changes_tlb o s _ fun w => sparseSet_wf _ _ _ _ _ w (by omega) ?_).writeX _ _).finish rfl
        have h1 := ((s.readX ‹_›).extractLsb' 10 2).isLt
        have h2 := ((s.readX ‹_›).extractLsb' 0 10).isLt
        omega
      · exact changes_plain_ordinary ((Quiet.refl s).writeX _ _).finish
    · exact U
  case rwCoeff o =>
    rw [exec_rwCoeff]; unfold execRwCoeff
    split
    · split
      · dsimp only
        split
        · rename_i hn
          refine changes_plain ((changes_coeff o s _ fun w k => ?_).writeX _ _).finish rfl
          simp only [Fin.getElem_fin, Vector.getElem_set]
          split
          · unfold Word.zextLow
            rw [BitVec.toNat_setWidth_of_le (by decide)]
            exact (BitVec.setWidth 32 _).isLt
          · exact w k
        · exact changes_plain_ordinary ((Quiet.refl s).writeX _ _).finish
      · exact U
    · exact U
  case plot v o =>
    rw [exec_plot]; unfold execPlot
    split
    · exact changes_plain (changes_plot v o s _).finish rfl
    · exact U
  case cache o =>
    rw [exec_cache]; unfold execCache
    split
    · split
      · exact U
      · refine changes_plain (Changes.finish ?_) rfl
        rw [cacheData_eq, cacheInstr_eq]
        exact changes_fetch o s _ _ (refreshed_wf _ _ s)
    · exact U
  case csrrw o =>
    rw [exec_csrrw]
    exact changes_csrAccess o (.inl rfl) s _
  case csrrs o =>
    rw [exec_csrrs]
    exact changes_csrAccess o (.inr (.inl rfl)) s _
  case csrrc o =>
    rw [exec_csrrc]
    exact changes_csrAccess o (.inr (.inr rfl)) s _
  case rte b o =>
    rw [exec_rte]; unfold execRte
    split
    · exact changes_plain (changes_return (.inl ⟨_, _, rfl⟩) s _ _) rfl
    · exact U
  case cRti => exact changes_short (changes_return (.inr rfl) s _ _) rfl
  case rex tm =>
    rw [exec_rex]; unfold execRex
    split
    · rename_i hb
      simp only [Bool.and_eq_true, decide_eq_true_eq] at hb
      exact changes_plain (changes_redirect tm s hb.1) rfl
    · exact changes_plain_ordinary (Quiet.refl s).finish
  case pushqi q a =>
    rw [exec_pushqi]; unfold execPushqi
    cases a
    · exact changes_plain (changes_push (.inr (.inl ⟨_, _, rfl⟩)) s _ _).finish rfl
    · exact U
  case pushq b a =>
    rw [exec_pushq]; unfold execPushq
    cases a
    · dsimp only
      split
      · exact changes_plain (changes_push (.inl ⟨_, _, rfl⟩) s _ _).finish rfl
      · exact U
    · exact U
  case popqi q r =>
    have := changes_popInto (.inr (.inr (.inr ⟨q, r, rfl⟩))) s (queueNumber q.toNat) r
    exact changes_plain this.1 this.2
  case popq a r =>
    rw [exec_popq]; unfold execPopq withQueue
    cases a with
    | x ra =>
      have := changes_popInto (.inr (.inr (.inl ⟨.x ra, r, rfl⟩))) s (queueNumber (s.readX ra).toNat) r
      exact changes_plain this.1 this.2
    | v ra => exact U
  all_goals first
    | exact (Bool.false_ne_true h).elim
    | exact (Bool.false_ne_true ho.symm).elim

/-- What every instruction but those changes at most. -/
theorem exec_changes (i : Instr) (s : State) (ho : isOpen i = false) : Out.Changes i s (exec i s) := by
  cases h : isSpecial i
  · exact changes_ordinary (exec_ordinary i s h)
  · exact exec_changes_special i s h ho

end Sys2Proof.Machine
end

