-- ==== Sys2Proof/Laws/Encoding.lean ====
section
/-! SUPPORT. Reading the fields of an encoded word back: for every format, its opcode, function code,
vector bit and operands. -/

set_option linter.unusedSimpArgs false

namespace Sys2Proof

/-! ### Fields of a concatenation -/

theorem ext_hi {n m : Nat} (a : BitVec n) (b : BitVec m) (k w : Nat) (h : m ≤ k) :
    (a ++ b).extractLsb' k w = a.extractLsb' (k - m) w := by
  ext i hi
  simp only [BitVec.getElem_extractLsb', BitVec.getLsbD_append]
  rw [if_neg (by omega)]
  congr 1
  omega

theorem ext_lo {n m : Nat} (a : BitVec n) (b : BitVec m) (k w : Nat) (h : k + w ≤ m) :
    (a ++ b).extractLsb' k w = b.extractLsb' k w := by
  ext i hi
  simp only [BitVec.getElem_extractLsb', BitVec.getLsbD_append]
  rw [if_pos (by omega)]

theorem ext_all {w : Nat} (a : BitVec w) : a.extractLsb' 0 w = a := by
  ext i hi
  simp

/-- Two neighbouring fields joined. -/
theorem ext_join {n : Nat} (a : BitVec n) (k w u : Nat) :
    (a.extractLsb' (k + w) u) ++ (a.extractLsb' k w) = a.extractLsb' k (u + w) := by
  ext i hi
  simp only [BitVec.getElem_append, BitVec.getElem_extractLsb']
  split
  · rfl
  · congr 1
    omega

theorem join2 (p : BitVec 2) : p.extractLsb' 1 1 ++ p.extractLsb' 0 1 = p :=
  (ext_join p 0 1 1).trans (ext_all p)
theorem join7 (p : BitVec 7) : p.extractLsb' 6 1 ++ p.extractLsb' 0 6 = p :=
  (ext_join p 0 6 1).trans (ext_all p)
theorem join11 (p : BitVec 11) : p.extractLsb' 6 5 ++ p.extractLsb' 0 6 = p :=
  (ext_join p 0 6 5).trans (ext_all p)
theorem join30 (p : BitVec 30) : p.extractLsb' 2 28 ++ p.extractLsb' 0 2 = p :=
  (ext_join p 0 2 28).trans (ext_all p)
theorem join16 (p : BitVec 16) : p.extractLsb' 7 9 ++ p.extractLsb' 6 1 ++ p.extractLsb' 0 6 = p := by
  rw [show p.extractLsb' 7 9 ++ p.extractLsb' 6 1 = p.extractLsb' 6 10 from ext_join p 6 1 9]
  exact (ext_join p 0 6 10).trans (ext_all p)

theorem ext_zero {n : Nat} (k w : Nat) : (0#n).extractLsb' k w = 0#w := by
  ext i hi
  simp
theorem bit_zero : (0#1 == 1#1) = false := rfl
theorem bit_ofBool (b : Bool) : (BitVec.ofBool b == 1#1) = b := by cases b <;> rfl

theorem RSpec.dec_enc (o : RSpec) : RSpec.dec o.enc = o := by
  cases o <;> simp (disch := decide) only [RSpec.dec, RSpec.enc, ext_hi, ext_lo, Nat.reduceSub, ext_all] <;> rfl

theorem OSpec.dec_enc (o : OSpec) : OSpec.dec o.enc = o := by
  cases o <;> simp (disch := decide) only [OSpec.dec, OSpec.enc, ext_hi, ext_lo, Nat.reduceSub, ext_all] <;> rfl

/-! ### Formats -/

theorem R1.enc_root (r f : BitVec 7) (v : Bool) (rm : BitVec 3) (o : R1) : rootOf (R1.enc r f v rm o) = r := by
  simp (disch := decide) only [rootOf, R1.enc, ext_hi, ext_lo, Nat.reduceSub, ext_all, bit_ofBool, bit_zero, ext_zero, join2, join7, join11, join16, join30, RSpec.dec_enc, OSpec.dec_enc]
theorem R1.enc_func (r f : BitVec 7) (v : Bool) (rm : BitVec 3) (o : R1) : funcOf (R1.enc r f v rm o) = f := by
  simp (disch := decide) only [funcOf, R1.enc, ext_hi, ext_lo, Nat.reduceSub, ext_all, bit_ofBool, bit_zero, ext_zero, join2, join7, join11, join16, join30, RSpec.dec_enc, OSpec.dec_enc]
theorem R1.enc_vBit (r f : BitVec 7) (v : Bool) (rm : BitVec 3) (o : R1) : vBit (R1.enc r f v rm o) = v := by
  simp (disch := decide) only [vBit, bit, R1.enc, ext_hi, ext_lo, Nat.reduceSub, ext_all, bit_ofBool, bit_zero, ext_zero, join2, join7, join11, join16, join30, RSpec.dec_enc, OSpec.dec_enc]
theorem R1.enc_dec (r f : BitVec 7) (v : Bool) (rm : BitVec 3) (o : R1) : R1.dec (R1.enc r f v rm o) = o := by
  simp (disch := decide) only [R1.dec, rA, rB, rT, bit, R1.enc, ext_hi, ext_lo, Nat.reduceSub, ext_all, bit_ofBool, bit_zero, ext_zero, join2, join7, join11, join16, join30, RSpec.dec_enc, OSpec.dec_enc]
theorem R1.enc_rm (r f : BitVec 7) (v : Bool) (rm : BitVec 3) (o : R1) : (R1.enc r f v rm o).extractLsb' 24 3 = rm := by
  simp (disch := decide) only [R1.enc, ext_hi, ext_lo, Nat.reduceSub, ext_all, bit_ofBool, bit_zero, ext_zero, join2, join7, join11, join16, join30, RSpec.dec_enc, OSpec.dec_enc]

theorem R2.enc_root (r f : BitVec 7) (v : Bool) (p : BitVec 2) (o : R2) : rootOf (R2.enc r f v p o) = r := by
  simp (disch := decide) only [rootOf, R2.enc, ext_hi, ext_lo, Nat.reduceSub, ext_all, bit_ofBool, bit_zero, ext_zero, join2, join7, join11, join16, join30, RSpec.dec_enc, OSpec.dec_enc]
theorem R2.enc_func (r f : BitVec 7) (v : Bool) (p : BitVec 2) (o : R2) : funcOf (R2.enc r f v p o) = f := by
  simp (disch := decide) only [funcOf, R2.enc, ext_hi, ext_lo, Nat.reduceSub, ext_all, bit_ofBool, bit_zero, ext_zero, join2, join7, join11, join16, join30, RSpec.dec_enc, OSpec.dec_enc]
theorem R2.enc_func4 (r f : BitVec 7) (v : Bool) (p : BitVec 2) (o : R2) : func4Of (R2.enc r f v p o) = f.extractLsb' 3 4 := by
  simp (disch := decide) only [func4Of, R2.enc, ext_hi, ext_lo, Nat.reduceSub, ext_all, bit_ofBool, bit_zero, ext_zero, join2, join7, join11, join16, join30, RSpec.dec_enc, OSpec.dec_enc]
theorem R2.enc_vBit (r f : BitVec 7) (v : Bool) (p : BitVec 2) (o : R2) : vBit (R2.enc r f v p o) = v := by
  simp (disch := decide) only [vBit, bit, R2.enc, ext_hi, ext_lo, Nat.reduceSub, ext_all, bit_ofBool, bit_zero, ext_zero, join2, join7, join11, join16, join30, RSpec.dec_enc, OSpec.dec_enc]
theorem R2.enc_dec (r f : BitVec 7) (v : Bool) (p : BitVec 2) (o : R2) : R2.dec (R2.enc r f v p o) = o := by
  simp (disch := decide) only [R2.dec, rA, rB, rT, bit, R2.enc, ext_hi, ext_lo, Nat.reduceSub, ext_all, bit_ofBool, bit_zero, ext_zero, join2, join7, join11, join16, join30, RSpec.dec_enc, OSpec.dec_enc]
theorem R2.enc_opt (r f : BitVec 7) (v : Bool) (p : BitVec 2) (o : R2) : (R2.enc r f v p o).extractLsb' 27 2 = p := by
  simp (disch := decide) only [R2.enc, ext_hi, ext_lo, Nat.reduceSub, ext_all, bit_ofBool, bit_zero, ext_zero, join2, join7, join11, join16, join30, RSpec.dec_enc, OSpec.dec_enc]

theorem R2I.enc_root (r f : BitVec 7) (v : Bool) (o : R2I) : rootOf (R2I.enc r f v o) = r := by
  simp (disch := decide) only [rootOf, R2I.enc, ext_hi, ext_lo, Nat.reduceSub, ext_all, bit_ofBool, bit_zero, ext_zero, join2, join7, join11, join16, join30, RSpec.dec_enc, OSpec.dec_enc]
theorem R2I.enc_func (r f : BitVec 7) (v : Bool) (o : R2I) : funcOf (R2I.enc r f v o) = f := by
  simp (disch := decide) only [funcOf, R2I.enc, ext_hi, ext_lo, Nat.reduceSub, ext_all, bit_ofBool, bit_zero, ext_zero, join2, join7, join11, join16, join30, RSpec.dec_enc, OSpec.dec_enc]
theorem R2I.enc_vBit (r f : BitVec 7) (v : Bool) (o : R2I) : vBit (R2I.enc r f v o) = v := by
  simp (disch := decide) only [vBit, bit, R2I.enc, ext_hi, ext_lo, Nat.reduceSub, ext_all, bit_ofBool, bit_zero, ext_zero, join2, join7, join11, join16, join30, RSpec.dec_enc, OSpec.dec_enc]
theorem R2I.enc_dec (r f : BitVec 7) (v : Bool) (o : R2I) : R2I.dec (R2I.enc r f v o) = o := by
  simp (disch := decide) only [R2I.dec, rA, rB, rT, bit, R2I.enc, ext_hi, ext_lo, Nat.reduceSub, ext_all, bit_ofBool, bit_zero, ext_zero, join2, join7, join11, join16, join30, RSpec.dec_enc, OSpec.dec_enc]

theorem RI.enc_root (r : BitVec 7) (v : Bool) (o : RI) : rootOf (RI.enc r v o) = r := by
  simp (disch := decide) only [rootOf, RI.enc, ext_hi, ext_lo, Nat.reduceSub, ext_all, bit_ofBool, bit_zero, ext_zero, join2, join7, join11, join16, join30, RSpec.dec_enc, OSpec.dec_enc]
theorem RI.enc_vBit (r : BitVec 7) (v : Bool) (o : RI) : vBit (RI.enc r v o) = v := by
  simp (disch := decide) only [vBit, bit, RI.enc, ext_hi, ext_lo, Nat.reduceSub, ext_all, bit_ofBool, bit_zero, ext_zero, join2, join7, join11, join16, join30, RSpec.dec_enc, OSpec.dec_enc]
theorem RI.enc_dec (r : BitVec 7) (v : Bool) (o : RI) : RI.dec (RI.enc r v o) = o := by
  simp (disch := decide) only [RI.dec, rA, rB, rT, bit, RI.enc, ext_hi, ext_lo, Nat.reduceSub, ext_all, bit_ofBool, bit_zero, ext_zero, join2, join7, join11, join16, join30, RSpec.dec_enc, OSpec.dec_enc]

theorem ChkI.enc_root (r : BitVec 7) (v : Bool) (o : ChkI) : rootOf (ChkI.enc r v o) = r := by
  simp (disch := decide) only [rootOf, ChkI.enc, ext_hi, ext_lo, Nat.reduceSub, ext_all, bit_ofBool, bit_zero, ext_zero, join2, join7, join11, join16, join30, RSpec.dec_enc, OSpec.dec_enc]
theorem ChkI.enc_vBit (r : BitVec 7) (v : Bool) (o : ChkI) : vBit (ChkI.enc r v o) = v := by
  simp (disch := decide) only [vBit, bit, ChkI.enc, ext_hi, ext_lo, Nat.reduceSub, ext_all, bit_ofBool, bit_zero, ext_zero, join2, join7, join11, join16, join30, RSpec.dec_enc, OSpec.dec_enc]
theorem ChkI.enc_dec (r : BitVec 7) (v : Bool) (o : ChkI) : ChkI.dec (ChkI.enc r v o) = o := by
  simp (disch := decide) only [ChkI.dec, rA, rB, rT, bit, ChkI.enc, ext_hi, ext_lo, Nat.reduceSub, ext_all, bit_ofBool, bit_zero, ext_zero, join2, join7, join11, join16, join30, RSpec.dec_enc, OSpec.dec_enc]

theorem ChkR.enc_root (r f : BitVec 7) (v : Bool) (o : ChkR) : rootOf (ChkR.enc r f v o) = r := by
  simp (disch := decide) only [rootOf, ChkR.enc, ext_hi, ext_lo, Nat.reduceSub, ext_all, bit_ofBool, bit_zero, ext_zero, join2, join7, join11, join16, join30, RSpec.dec_enc, OSpec.dec_enc]
theorem ChkR.enc_func (r f : BitVec 7) (v : Bool) (o : ChkR) : funcOf (ChkR.enc r f v o) = f := by
  simp (disch := decide) only [funcOf, ChkR.enc, ext_hi, ext_lo, Nat.reduceSub, ext_all, bit_ofBool, bit_zero, ext_zero, join2, join7, join11, join16, join30, RSpec.dec_enc, OSpec.dec_enc]
theorem ChkR.enc_vBit (r f : BitVec 7) (v : Bool) (o : ChkR) : vBit (ChkR.enc r f v o) = v := by
  simp (disch := decide) only [vBit, bit, ChkR.enc, ext_hi, ext_lo, Nat.reduceSub, ext_all, bit_ofBool, bit_zero, ext_zero, join2, join7, join11, join16, join30, RSpec.dec_enc, OSpec.dec_enc]
theorem ChkR.enc_dec (r f : BitVec 7) (v : Bool) (o : ChkR) : ChkR.dec (ChkR.enc r f v o) = o := by
  simp (disch := decide) only [ChkR.dec, rA, rB, rT, bit, ChkR.enc, ext_hi, ext_lo, Nat.reduceSub, ext_all, bit_ofBool, bit_zero, ext_zero, join2, join7, join11, join16, join30, RSpec.dec_enc, OSpec.dec_enc]

theorem BytI.enc_root (r : BitVec 7) (v : Bool) (o : BytI) : rootOf (BytI.enc r v o) = r := by
  simp (disch := decide) only [rootOf, BytI.enc, ext_hi, ext_lo, Nat.reduceSub, ext_all, bit_ofBool, bit_zero, ext_zero, join2, join7, join11, join16, join30, RSpec.dec_enc, OSpec.dec_enc]
theorem BytI.enc_func4 (r : BitVec 7) (v : Bool) (o : BytI) : func4Of (BytI.enc r v o) = 1#4 := by
  simp (disch := decide) only [func4Of, BytI.enc, ext_hi, ext_lo, Nat.reduceSub, ext_all, bit_ofBool, bit_zero, ext_zero, join2, join7, join11, join16, join30, RSpec.dec_enc, OSpec.dec_enc]
theorem BytI.enc_vBit (r : BitVec 7) (v : Bool) (o : BytI) : vBit (BytI.enc r v o) = v := by
  simp (disch := decide) only [vBit, bit, BytI.enc, ext_hi, ext_lo, Nat.reduceSub, ext_all, bit_ofBool, bit_zero, ext_zero, join2, join7, join11, join16, join30, RSpec.dec_enc, OSpec.dec_enc]
theorem BytI.enc_dec (r : BitVec 7) (v : Bool) (o : BytI) : BytI.dec (BytI.enc r v o) = o := by
  simp (disch := decide) only [BytI.dec, rA, rB, rT, bit, BytI.enc, ext_hi, ext_lo, Nat.reduceSub, ext_all, bit_ofBool, bit_zero, ext_zero, join2, join7, join11, join16, join30, RSpec.dec_enc, OSpec.dec_enc]

theorem Csr.enc_root (p : BitVec 2) (o : Csr) : rootOf (Csr.enc p o) = 0x0f#7 := by
  simp (disch := decide) only [rootOf, Csr.enc, ext_hi, ext_lo, Nat.reduceSub, ext_all, bit_ofBool, bit_zero, ext_zero, join2, join7, join11, join16, join30, RSpec.dec_enc, OSpec.dec_enc]
theorem Csr.enc_vBit (p : BitVec 2) (o : Csr) : vBit (Csr.enc p o) = false := by
  simp (disch := decide) only [vBit, bit, Csr.enc, ext_hi, ext_lo, Nat.reduceSub, ext_all, bit_ofBool, bit_zero, ext_zero, join2, join7, join11, join16, join30, RSpec.dec_enc, OSpec.dec_enc]
theorem Csr.enc_dec (p : BitVec 2) (o : Csr) : Csr.dec (Csr.enc p o) = o := by
  simp (disch := decide) only [Csr.dec, rA, rB, rT, bit, Csr.enc, ext_hi, ext_lo, Nat.reduceSub, ext_all, bit_ofBool, bit_zero, ext_zero, join2, join7, join11, join16, join30, RSpec.dec_enc, OSpec.dec_enc]
theorem Csr.enc_op (p : BitVec 2) (o : Csr) : csrOp (Csr.enc p o) = p := by
  simp (disch := decide) only [csrOp, Csr.enc, ext_hi, ext_lo, Nat.reduceSub, ext_all, bit_ofBool, bit_zero, ext_zero, join2, join7, join11, join16, join30, RSpec.dec_enc, OSpec.dec_enc]

theorem Two.enc_root (r : BitVec 7) (v : Bool) (o : Two) : rootOf (Two.enc r v o) = r := by
  simp (disch := decide) only [rootOf, Two.enc, ext_hi, ext_lo, Nat.reduceSub, ext_all, bit_ofBool, bit_zero, ext_zero, join2, join7, join11, join16, join30, RSpec.dec_enc, OSpec.dec_enc]
theorem Two.enc_vBit (r : BitVec 7) (v : Bool) (o : Two) : vBit (Two.enc r v o) = v := by
  simp (disch := decide) only [vBit, bit, Two.enc, ext_hi, ext_lo, Nat.reduceSub, ext_all, bit_ofBool, bit_zero, ext_zero, join2, join7, join11, join16, join30, RSpec.dec_enc, OSpec.dec_enc]
theorem Two.enc_dec (r : BitVec 7) (v : Bool) (o : Two) : Two.dec (Two.enc r v o) = o := by
  simp (disch := decide) only [Two.dec, rA, rB, rT, bit, Two.enc, ext_hi, ext_lo, Nat.reduceSub, ext_all, bit_ofBool, bit_zero, ext_zero, join2, join7, join11, join16, join30, RSpec.dec_enc, OSpec.dec_enc]

theorem Branch.enc_root (r : BitVec 7) (o : Branch) : rootOf (Branch.enc r o) = r := by
  simp (disch := decide) only [rootOf, Branch.enc, ext_hi, ext_lo, Nat.reduceSub, ext_all, bit_ofBool, bit_zero, ext_zero, join2, join7, join11, join16, join30, RSpec.dec_enc, OSpec.dec_enc]
theorem Branch.enc_vBit (r : BitVec 7) (o : Branch) : vBit (Branch.enc r o) = false := by
  simp (disch := decide) only [vBit, bit, Branch.enc, ext_hi, ext_lo, Nat.reduceSub, ext_all, bit_ofBool, bit_zero, ext_zero, join2, join7, join11, join16, join30, RSpec.dec_enc, OSpec.dec_enc]
theorem Branch.enc_dec (r : BitVec 7) (o : Branch) : Branch.dec (Branch.enc r o) = o := by
  simp (disch := decide) only [Branch.dec, rA, rB, rT, bit, Branch.enc, ext_hi, ext_lo, Nat.reduceSub, ext_all, bit_ofBool, bit_zero, ext_zero, join2, join7, join11, join16, join30, RSpec.dec_enc, OSpec.dec_enc]

theorem ImodOps.enc_root (v : Bool) (o : ImodOps) : rootOf (ImodOps.enc v o) = 0x58#7 := by
  simp (disch := decide) only [rootOf, ImodOps.enc, ext_hi, ext_lo, Nat.reduceSub, ext_all, bit_ofBool, bit_zero, ext_zero, join2, join7, join11, join16, join30, RSpec.dec_enc, OSpec.dec_enc]
theorem ImodOps.enc_vBit (v : Bool) (o : ImodOps) : vBit (ImodOps.enc v o) = v := by
  simp (disch := decide) only [vBit, bit, ImodOps.enc, ext_hi, ext_lo, Nat.reduceSub, ext_all, bit_ofBool, bit_zero, ext_zero, join2, join7, join11, join16, join30, RSpec.dec_enc, OSpec.dec_enc]
theorem ImodOps.enc_dec (v : Bool) (o : ImodOps) : ImodOps.dec (ImodOps.enc v o) = o := by
  simp (disch := decide) only [ImodOps.dec, rA, rB, rT, bit, ImodOps.enc, ext_hi, ext_lo, Nat.reduceSub, ext_all, bit_ofBool, bit_zero, ext_zero, join2, join7, join11, join16, join30, RSpec.dec_enc, OSpec.dec_enc]

theorem BrmodOps.enc_root (o : BrmodOps) : rootOf (BrmodOps.enc o) = 0x5a#7 := by
  simp (disch := decide) only [rootOf, BrmodOps.enc, ext_hi, ext_lo, Nat.reduceSub, ext_all, bit_ofBool, bit_zero, ext_zero, join2, join7, join11, join16, join30, RSpec.dec_enc, OSpec.dec_enc]
theorem BrmodOps.enc_vBit (o : BrmodOps) : vBit (BrmodOps.enc o) = false := by
  simp (disch := decide) only [vBit, bit, BrmodOps.enc, ext_hi, ext_lo, Nat.reduceSub, ext_all, bit_ofBool, bit_zero, ext_zero, join2, join7, join11, join16, join30, RSpec.dec_enc, OSpec.dec_enc]
theorem BrmodOps.enc_dec (o : BrmodOps) : BrmodOps.dec (BrmodOps.enc o) = o := by
  simp (disch := decide) only [BrmodOps.dec, rA, rB, rT, bit, BrmodOps.enc, ext_hi, ext_lo, Nat.reduceSub, ext_all, bit_ofBool, bit_zero, ext_zero, join2, join7, join11, join16, join30, RSpec.dec_enc, OSpec.dec_enc]

theorem StrideOps.enc_root (v : Bool) (o : StrideOps) : rootOf (StrideOps.enc v o) = 0x5b#7 := by
  simp (disch := decide) only [rootOf, StrideOps.enc, ext_hi, ext_lo, Nat.reduceSub, ext_all, bit_ofBool, bit_zero, ext_zero, join2, join7, join11, join16, join30, RSpec.dec_enc, OSpec.dec_enc]
theorem StrideOps.enc_vBit (v : Bool) (o : StrideOps) : vBit (StrideOps.enc v o) = v := by
  simp (disch := decide) only [vBit, bit, StrideOps.enc, ext_hi, ext_lo, Nat.reduceSub, ext_all, bit_ofBool, bit_zero, ext_zero, join2, join7, join11, join16, join30, RSpec.dec_enc, OSpec.dec_enc]
theorem StrideOps.enc_dec (v : Bool) (o : StrideOps) : StrideOps.dec (StrideOps.enc v o) = o := by
  simp (disch := decide) only [StrideOps.dec, rA, rB, rT, bit, StrideOps.enc, ext_hi, ext_lo, Nat.reduceSub, ext_all, bit_ofBool, bit_zero, ext_zero, join2, join7, join11, join16, join30, RSpec.dec_enc, OSpec.dec_enc]

theorem LdD.enc_root (r : BitVec 7) (v : Bool) (f : BitVec 4) (o : LdD) : rootOf (LdD.enc r v f o) = r := by
  simp (disch := decide) only [rootOf, LdD.enc, ext_hi, ext_lo, Nat.reduceSub, ext_all, bit_ofBool, bit_zero, ext_zero, join2, join7, join11, join16, join30, RSpec.dec_enc, OSpec.dec_enc]
theorem LdD.enc_func4 (r : BitVec 7) (v : Bool) (f : BitVec 4) (o : LdD) : func4Of (LdD.enc r v f o) = f := by
  simp (disch := decide) only [func4Of, LdD.enc, ext_hi, ext_lo, Nat.reduceSub, ext_all, bit_ofBool, bit_zero, ext_zero, join2, join7, join11, join16, join30, RSpec.dec_enc, OSpec.dec_enc]
theorem LdD.enc_vBit (r : BitVec 7) (v : Bool) (f : BitVec 4) (o : LdD) : vBit (LdD.enc r v f o) = v := by
  simp (disch := decide) only [vBit, bit, LdD.enc, ext_hi, ext_lo, Nat.reduceSub, ext_all, bit_ofBool, bit_zero, ext_zero, join2, join7, join11, join16, join30, RSpec.dec_enc, OSpec.dec_enc]
theorem LdD.enc_dec (r : BitVec 7) (v : Bool) (f : BitVec 4) (o : LdD) : LdD.dec (LdD.enc r v f o) = o := by
  simp (disch := decide) only [LdD.dec, rA, rB, rT, bit, LdD.enc, ext_hi, ext_lo, Nat.reduceSub, ext_all, bit_ofBool, bit_zero, ext_zero, join2, join7, join11, join16, join30, RSpec.dec_enc, OSpec.dec_enc]
theorem LdD.enc_f4 (r : BitVec 7) (v : Bool) (f : BitVec 4) (o : LdD) : (LdD.enc r v f o).extractLsb' 32 4 = f := by
  simp (disch := decide) only [LdD.enc, ext_hi, ext_lo, Nat.reduceSub, ext_all, bit_ofBool, bit_zero, ext_zero, join2, join7, join11, join16, join30, RSpec.dec_enc, OSpec.dec_enc]

theorem LdX.enc_root (r : BitVec 7) (f : BitVec 4) (o : LdX) : rootOf (LdX.enc r f o) = r := by
  simp (disch := decide) only [rootOf, LdX.enc, ext_hi, ext_lo, Nat.reduceSub, ext_all, bit_ofBool, bit_zero, ext_zero, join2, join7, join11, join16, join30, RSpec.dec_enc, OSpec.dec_enc]
theorem LdX.enc_func4 (r : BitVec 7) (f : BitVec 4) (o : LdX) : func4Of (LdX.enc r f o) = f := by
  simp (disch := decide) only [func4Of, LdX.enc, ext_hi, ext_lo, Nat.reduceSub, ext_all, bit_ofBool, bit_zero, ext_zero, join2, join7, join11, join16, join30, RSpec.dec_enc, OSpec.dec_enc]
theorem LdX.enc_vBit (r : BitVec 7) (f : BitVec 4) (o : LdX) : vBit (LdX.enc r f o) = false := by
  simp (disch := decide) only [vBit, bit, LdX.enc, ext_hi, ext_lo, Nat.reduceSub, ext_all, bit_ofBool, bit_zero, ext_zero, join2, join7, join11, join16, join30, RSpec.dec_enc, OSpec.dec_enc]
theorem LdX.enc_dec (r : BitVec 7) (f : BitVec 4) (o : LdX) : LdX.dec (LdX.enc r f o) = o := by
  simp (disch := decide) only [LdX.dec, rA, rB, rT, bit, LdX.enc, ext_hi, ext_lo, Nat.reduceSub, ext_all, bit_ofBool, bit_zero, ext_zero, join2, join7, join11, join16, join30, RSpec.dec_enc, OSpec.dec_enc]

theorem StD.enc_root (r : BitVec 7) (v : Bool) (f : BitVec 4) (o : StD) : rootOf (StD.enc r v f o) = r := by
  simp (disch := decide) only [rootOf, StD.enc, ext_hi, ext_lo, Nat.reduceSub, ext_all, bit_ofBool, bit_zero, ext_zero, join2, join7, join11, join16, join30, RSpec.dec_enc, OSpec.dec_enc]
theorem StD.enc_func4 (r : BitVec 7) (v : Bool) (f : BitVec 4) (o : StD) : func4Of (StD.enc r v f o) = f := by
  simp (disch := decide) only [func4Of, StD.enc, ext_hi, ext_lo, Nat.reduceSub, ext_all, bit_ofBool, bit_zero, ext_zero, join2, join7, join11, join16, join30, RSpec.dec_enc, OSpec.dec_enc]
theorem StD.enc_vBit (r : BitVec 7) (v : Bool) (f : BitVec 4) (o : StD) : vBit (StD.enc r v f o) = v := by
  simp (disch := decide) only [vBit, bit, StD.enc, ext_hi, ext_lo, Nat.reduceSub, ext_all, bit_ofBool, bit_zero, ext_zero, join2, join7, join11, join16, join30, RSpec.dec_enc, OSpec.dec_enc]
theorem StD.enc_dec (r : BitVec 7) (v : Bool) (f : BitVec 4) (o : StD) : StD.dec (StD.enc r v f o) = o := by
  simp (disch := decide) only [StD.dec, rA, rB, rT, bit, StD.enc, ext_hi, ext_lo, Nat.reduceSub, ext_all, bit_ofBool, bit_zero, ext_zero, join2, join7, join11, join16, join30, RSpec.dec_enc, OSpec.dec_enc]
theorem StD.enc_f4 (r : BitVec 7) (v : Bool) (f : BitVec 4) (o : StD) : (StD.enc r v f o).extractLsb' 32 4 = f := by
  simp (disch := decide) only [StD.enc, ext_hi, ext_lo, Nat.reduceSub, ext_all, bit_ofBool, bit_zero, ext_zero, join2, join7, join11, join16, join30, RSpec.dec_enc, OSpec.dec_enc]

theorem StX.enc_root (r : BitVec 7) (f : BitVec 4) (o : StX) : rootOf (StX.enc r f o) = r := by
  simp (disch := decide) only [rootOf, StX.enc, ext_hi, ext_lo, Nat.reduceSub, ext_all, bit_ofBool, bit_zero, ext_zero, join2, join7, join11, join16, join30, RSpec.dec_enc, OSpec.dec_enc]
theorem StX.enc_func4 (r : BitVec 7) (f : BitVec 4) (o : StX) : func4Of (StX.enc r f o) = f := by
  simp (disch := decide) only [func4Of, StX.enc, ext_hi, ext_lo, Nat.reduceSub, ext_all, bit_ofBool, bit_zero, ext_zero, join2, join7, join11, join16, join30, RSpec.dec_enc, OSpec.dec_enc]
theorem StX.enc_vBit (r : BitVec 7) (f : BitVec 4) (o : StX) : vBit (StX.enc r f o) = false := by
  simp (disch := decide) only [vBit, bit, StX.enc, ext_hi, ext_lo, Nat.reduceSub, ext_all, bit_ofBool, bit_zero, ext_zero, join2, join7, join11, join16, join30, RSpec.dec_enc, OSpec.dec_enc]
theorem StX.enc_dec (r : BitVec 7) (f : BitVec 4) (o : StX) : StX.dec (StX.enc r f o) = o := by
  simp (disch := decide) only [StX.dec, rA, rB, rT, bit, StX.enc, ext_hi, ext_lo, Nat.reduceSub, ext_all, bit_ofBool, bit_zero, ext_zero, join2, join7, join11, join16, join30, RSpec.dec_enc, OSpec.dec_enc]

theorem CacheOps.enc_root (o : CacheOps) : rootOf (CacheOps.enc o) = 0x60#7 := by
  simp (disch := decide) only [rootOf, CacheOps.enc, ext_hi, ext_lo, Nat.reduceSub, ext_all, bit_ofBool, bit_zero, ext_zero, join2, join7, join11, join16, join30, RSpec.dec_enc, OSpec.dec_enc]
theorem CacheOps.enc_func4 (o : CacheOps) : func4Of (CacheOps.enc o) = 0xf#4 := by
  simp (disch := decide) only [func4Of, CacheOps.enc, ext_hi, ext_lo, Nat.reduceSub, ext_all, bit_ofBool, bit_zero, ext_zero, join2, join7, join11, join16, join30, RSpec.dec_enc, OSpec.dec_enc]
theorem CacheOps.enc_vBit (o : CacheOps) : vBit (CacheOps.enc o) = false := by
  simp (disch := decide) only [vBit, bit, CacheOps.enc, ext_hi, ext_lo, Nat.reduceSub, ext_all, bit_ofBool, bit_zero, ext_zero, join2, join7, join11, join16, join30, RSpec.dec_enc, OSpec.dec_enc]
theorem CacheOps.enc_dec (o : CacheOps) : CacheOps.dec (CacheOps.enc o) = o := by
  simp (disch := decide) only [CacheOps.dec, rA, rB, rT, bit, CacheOps.enc, ext_hi, ext_lo, Nat.reduceSub, ext_all, bit_ofBool, bit_zero, ext_zero, join2, join7, join11, join16, join30, RSpec.dec_enc, OSpec.dec_enc]

theorem MaskRRR.enc_root (f : BitVec 7) (o : MaskRRR) : rootOf (MaskRRR.enc f o) = 0x3e#7 := by
  simp (disch := decide) only [rootOf, MaskRRR.enc, ext_hi, ext_lo, Nat.reduceSub, ext_all, bit_ofBool, bit_zero, ext_zero, join2, join7, join11, join16, join30, RSpec.dec_enc, OSpec.dec_enc]
theorem MaskRRR.enc_func (f : BitVec 7) (o : MaskRRR) : funcOf (MaskRRR.enc f o) = f := by
  simp (disch := decide) only [funcOf, MaskRRR.enc, ext_hi, ext_lo, Nat.reduceSub, ext_all, bit_ofBool, bit_zero, ext_zero, join2, join7, join11, join16, join30, RSpec.dec_enc, OSpec.dec_enc]
theorem MaskRRR.enc_vBit (f : BitVec 7) (o : MaskRRR) : vBit (MaskRRR.enc f o) = false := by
  simp (disch := decide) only [vBit, bit, MaskRRR.enc, ext_hi, ext_lo, Nat.reduceSub, ext_all, bit_ofBool, bit_zero, ext_zero, join2, join7, join11, join16, join30, RSpec.dec_enc, OSpec.dec_enc]
theorem MaskRRR.enc_dec (f : BitVec 7) (o : MaskRRR) : MaskRRR.dec (MaskRRR.enc f o) = o := by
  simp (disch := decide) only [MaskRRR.dec, rA, rB, rT, bit, MaskRRR.enc, ext_hi, ext_lo, Nat.reduceSub, ext_all, bit_ofBool, bit_zero, ext_zero, join2, join7, join11, join16, join30, RSpec.dec_enc, OSpec.dec_enc]

theorem MaskShift.enc_root (f : BitVec 7) (o : MaskShift) : rootOf (MaskShift.enc f o) = 0x3e#7 := by
  simp (disch := decide) only [rootOf, MaskShift.enc, ext_hi, ext_lo, Nat.reduceSub, ext_all, bit_ofBool, bit_zero, ext_zero, join2, join7, join11, join16, join30, RSpec.dec_enc, OSpec.dec_enc]
theorem MaskShift.enc_func (f : BitVec 7) (o : MaskShift) : funcOf (MaskShift.enc f o) = f := by
  simp (disch := decide) only [funcOf, MaskShift.enc, ext_hi, ext_lo, Nat.reduceSub, ext_all, bit_ofBool, bit_zero, ext_zero, join2, join7, join11, join16, join30, RSpec.dec_enc, OSpec.dec_enc]
theorem MaskShift.enc_vBit (f : BitVec 7) (o : MaskShift) : vBit (MaskShift.enc f o) = false := by
  simp (disch := decide) only [vBit, bit, MaskShift.enc, ext_hi, ext_lo, Nat.reduceSub, ext_all, bit_ofBool, bit_zero, ext_zero, join2, join7, join11, join16, join30, RSpec.dec_enc, OSpec.dec_enc]
theorem MaskShift.enc_dec (f : BitVec 7) (o : MaskShift) : MaskShift.dec (MaskShift.enc f o) = o := by
  simp (disch := decide) only [MaskShift.dec, rA, rB, rT, bit, MaskShift.enc, ext_hi, ext_lo, Nat.reduceSub, ext_all, bit_ofBool, bit_zero, ext_zero, join2, join7, join11, join16, join30, RSpec.dec_enc, OSpec.dec_enc]

theorem ToMask.enc_root (f : BitVec 7) (o : ToMask) : rootOf (ToMask.enc f o) = 0x3e#7 := by
  simp (disch := decide) only [rootOf, ToMask.enc, ext_hi, ext_lo, Nat.reduceSub, ext_all, bit_ofBool, bit_zero, ext_zero, join2, join7, join11, join16, join30, RSpec.dec_enc, OSpec.dec_enc]
theorem ToMask.enc_func (f : BitVec 7) (o : ToMask) : funcOf (ToMask.enc f o) = f := by
  simp (disch := decide) only [funcOf, ToMask.enc, ext_hi, ext_lo, Nat.reduceSub, ext_all, bit_ofBool, bit_zero, ext_zero, join2, join7, join11, join16, join30, RSpec.dec_enc, OSpec.dec_enc]
theorem ToMask.enc_vBit (f : BitVec 7) (o : ToMask) : vBit (ToMask.enc f o) = false := by
  simp (disch := decide) only [vBit, bit, ToMask.enc, ext_hi, ext_lo, Nat.reduceSub, ext_all, bit_ofBool, bit_zero, ext_zero, join2, join7, join11, join16, join30, RSpec.dec_enc, OSpec.dec_enc]
theorem ToMask.enc_dec (f : BitVec 7) (o : ToMask) : ToMask.dec (ToMask.enc f o) = o := by
  simp (disch := decide) only [ToMask.dec, rA, rB, rT, bit, ToMask.enc, ext_hi, ext_lo, Nat.reduceSub, ext_all, bit_ofBool, bit_zero, ext_zero, join2, join7, join11, join16, join30, RSpec.dec_enc, OSpec.dec_enc]

theorem FromMask.enc_root (f : BitVec 7) (o : FromMask) : rootOf (FromMask.enc f o) = 0x3e#7 := by
  simp (disch := decide) only [rootOf, FromMask.enc, ext_hi, ext_lo, Nat.reduceSub, ext_all, bit_ofBool, bit_zero, ext_zero, join2, join7, join11, join16, join30, RSpec.dec_enc, OSpec.dec_enc]
theorem FromMask.enc_func (f : BitVec 7) (o : FromMask) : funcOf (FromMask.enc f o) = f := by
  simp (disch := decide) only [funcOf, FromMask.enc, ext_hi, ext_lo, Nat.reduceSub, ext_all, bit_ofBool, bit_zero, ext_zero, join2, join7, join11, join16, join30, RSpec.dec_enc, OSpec.dec_enc]
theorem FromMask.enc_vBit (f : BitVec 7) (o : FromMask) : vBit (FromMask.enc f o) = false := by
  simp (disch := decide) only [vBit, bit, FromMask.enc, ext_hi, ext_lo, Nat.reduceSub, ext_all, bit_ofBool, bit_zero, ext_zero, join2, join7, join11, join16, join30, RSpec.dec_enc, OSpec.dec_enc]
theorem FromMask.enc_dec (f : BitVec 7) (o : FromMask) : FromMask.dec (FromMask.enc f o) = o := by
  simp (disch := decide) only [FromMask.dec, rA, rB, rT, bit, FromMask.enc, ext_hi, ext_lo, Nat.reduceSub, ext_all, bit_ofBool, bit_zero, ext_zero, join2, join7, join11, join16, join30, RSpec.dec_enc, OSpec.dec_enc]

theorem mtvlWord_root (a : RSpec) : rootOf (mtvlWord a) = 0x3e#7 := by
  simp (disch := decide) only [rootOf, mtvlWord, ext_hi, ext_lo, Nat.reduceSub, ext_all, bit_ofBool, bit_zero, ext_zero, join2, join7, join11, join16, join30, RSpec.dec_enc, OSpec.dec_enc]
theorem mtvlWord_func (a : RSpec) : funcOf (mtvlWord a) = 0x12#7 := by
  simp (disch := decide) only [funcOf, mtvlWord, ext_hi, ext_lo, Nat.reduceSub, ext_all, bit_ofBool, bit_zero, ext_zero, join2, join7, join11, join16, join30, RSpec.dec_enc, OSpec.dec_enc]
theorem mtvlWord_vBit (a : RSpec) : vBit (mtvlWord a) = false := by
  simp (disch := decide) only [vBit, bit, mtvlWord, ext_hi, ext_lo, Nat.reduceSub, ext_all, bit_ofBool, bit_zero, ext_zero, join2, join7, join11, join16, join30, RSpec.dec_enc, OSpec.dec_enc]
theorem mtvlWord_a (a : RSpec) : rA (mtvlWord a) = a := by
  simp (disch := decide) only [rA, mtvlWord, ext_hi, ext_lo, Nat.reduceSub, ext_all, bit_ofBool, bit_zero, ext_zero, join2, join7, join11, join16, join30, RSpec.dec_enc, OSpec.dec_enc]

theorem mfvlWord_root (tt : BitVec 2) (rt : BitVec 5) : rootOf (mfvlWord tt rt) = 0x3e#7 := by
  simp (disch := decide) only [rootOf, mfvlWord, ext_hi, ext_lo, Nat.reduceSub, ext_all, bit_ofBool, bit_zero, ext_zero, join2, join7, join11, join16, join30, RSpec.dec_enc, OSpec.dec_enc]
theorem mfvlWord_func (tt : BitVec 2) (rt : BitVec 5) : funcOf (mfvlWord tt rt) = 0x13#7 := by
  simp (disch := decide) only [funcOf, mfvlWord, ext_hi, ext_lo, Nat.reduceSub, ext_all, bit_ofBool, bit_zero, ext_zero, join2, join7, join11, join16, join30, RSpec.dec_enc, OSpec.dec_enc]
theorem mfvlWord_vBit (tt : BitVec 2) (rt : BitVec 5) : vBit (mfvlWord tt rt) = false := by
  simp (disch := decide) only [vBit, bit, mfvlWord, ext_hi, ext_lo, Nat.reduceSub, ext_all, bit_ofBool, bit_zero, ext_zero, join2, join7, join11, join16, join30, RSpec.dec_enc, OSpec.dec_enc]
theorem mfvlWord_tt (tt : BitVec 2) (rt : BitVec 5) : (mfvlWord tt rt).extractLsb' 13 2 = tt := by
  simp (disch := decide) only [mfvlWord, ext_hi, ext_lo, Nat.reduceSub, ext_all, bit_ofBool, bit_zero, ext_zero, join2, join7, join11, join16, join30, RSpec.dec_enc, OSpec.dec_enc]
theorem mfvlWord_rt (tt : BitVec 2) (rt : BitVec 5) : (mfvlWord tt rt).extractLsb' 8 5 = rt := by
  simp (disch := decide) only [mfvlWord, ext_hi, ext_lo, Nat.reduceSub, ext_all, bit_ofBool, bit_zero, ext_zero, join2, join7, join11, join16, join30, RSpec.dec_enc, OSpec.dec_enc]

theorem wordV_root (r : BitVec 7) (v : Bool) : rootOf (wordV r v) = r := by
  simp (disch := decide) only [rootOf, wordV, ext_hi, ext_lo, Nat.reduceSub, ext_all, bit_ofBool, bit_zero, ext_zero, join2, join7, join11, join16, join30, RSpec.dec_enc, OSpec.dec_enc]
theorem wordV_vBit (r : BitVec 7) (v : Bool) : vBit (wordV r v) = v := by
  simp (disch := decide) only [vBit, bit, wordV, ext_hi, ext_lo, Nat.reduceSub, ext_all, bit_ofBool, bit_zero, ext_zero, join2, join7, join11, join16, join30, RSpec.dec_enc, OSpec.dec_enc]

theorem brkWord_root (c : BitVec 8) : rootOf (brkWord c) = 0x00#7 := by
  simp (disch := decide) only [rootOf, brkWord, ext_hi, ext_lo, Nat.reduceSub, ext_all, bit_ofBool, bit_zero, ext_zero, join2, join7, join11, join16, join30, RSpec.dec_enc, OSpec.dec_enc]
theorem brkWord_vBit (c : BitVec 8) : vBit (brkWord c) = false := by
  simp (disch := decide) only [vBit, bit, brkWord, ext_hi, ext_lo, Nat.reduceSub, ext_all, bit_ofBool, bit_zero, ext_zero, join2, join7, join11, join16, join30, RSpec.dec_enc, OSpec.dec_enc]
theorem brkWord_cause (c : BitVec 8) : (brkWord c).extractLsb' 14 8 = c := by
  simp (disch := decide) only [brkWord, ext_hi, ext_lo, Nat.reduceSub, ext_all, bit_ofBool, bit_zero, ext_zero, join2, join7, join11, join16, join30, RSpec.dec_enc, OSpec.dec_enc]

theorem sysWord_root (f : BitVec 7) : rootOf (sysWord f) = 0x07#7 := by
  simp (disch := decide) only [rootOf, sysWord, ext_hi, ext_lo, Nat.reduceSub, ext_all, bit_ofBool, bit_zero, ext_zero, join2, join7, join11, join16, join30, RSpec.dec_enc, OSpec.dec_enc]
theorem sysWord_func (f : BitVec 7) : funcOf (sysWord f) = f := by
  simp (disch := decide) only [funcOf, sysWord, ext_hi, ext_lo, Nat.reduceSub, ext_all, bit_ofBool, bit_zero, ext_zero, join2, join7, join11, join16, join30, RSpec.dec_enc, OSpec.dec_enc]
theorem sysWord_vBit (f : BitVec 7) : vBit (sysWord f) = false := by
  simp (disch := decide) only [vBit, bit, sysWord, ext_hi, ext_lo, Nat.reduceSub, ext_all, bit_ofBool, bit_zero, ext_zero, join2, join7, join11, join16, join30, RSpec.dec_enc, OSpec.dec_enc]

theorem sysA_root (f : BitVec 7) (a : RSpec) : rootOf (sysA f a) = 0x07#7 := by
  simp (disch := decide) only [rootOf, sysA, ext_hi, ext_lo, Nat.reduceSub, ext_all, bit_ofBool, bit_zero, ext_zero, join2, join7, join11, join16, join30, RSpec.dec_enc, OSpec.dec_enc]
theorem sysA_func (f : BitVec 7) (a : RSpec) : funcOf (sysA f a) = f := by
  simp (disch := decide) only [funcOf, sysA, ext_hi, ext_lo, Nat.reduceSub, ext_all, bit_ofBool, bit_zero, ext_zero, join2, join7, join11, join16, join30, RSpec.dec_enc, OSpec.dec_enc]
theorem sysA_vBit (f : BitVec 7) (a : RSpec) : vBit (sysA f a) = false := by
  simp (disch := decide) only [vBit, bit, sysA, ext_hi, ext_lo, Nat.reduceSub, ext_all, bit_ofBool, bit_zero, ext_zero, join2, join7, join11, join16, join30, RSpec.dec_enc, OSpec.dec_enc]
theorem sysA_a (f : BitVec 7) (a : RSpec) : rA (sysA f a) = a := by
  simp (disch := decide) only [rA, sysA, ext_hi, ext_lo, Nat.reduceSub, ext_all, bit_ofBool, bit_zero, ext_zero, join2, join7, join11, join16, join30, RSpec.dec_enc, OSpec.dec_enc]

theorem sysT_root (f : BitVec 7) (t : RSpec) : rootOf (sysT f t) = 0x07#7 := by
  simp (disch := decide) only [rootOf, sysT, ext_hi, ext_lo, Nat.reduceSub, ext_all, bit_ofBool, bit_zero, ext_zero, join2, join7, join11, join16, join30, RSpec.dec_enc, OSpec.dec_enc]
theorem sysT_func (f : BitVec 7) (t : RSpec) : funcOf (sysT f t) = f := by
  simp (disch := decide) only [funcOf, sysT, ext_hi, ext_lo, Nat.reduceSub, ext_all, bit_ofBool, bit_zero, ext_zero, join2, join7, join11, join16, join30, RSpec.dec_enc, OSpec.dec_enc]
theorem sysT_vBit (f : BitVec 7) (t : RSpec) : vBit (sysT f t) = false := by
  simp (disch := decide) only [vBit, bit, sysT, ext_hi, ext_lo, Nat.reduceSub, ext_all, bit_ofBool, bit_zero, ext_zero, join2, join7, join11, join16, join30, RSpec.dec_enc, OSpec.dec_enc]
theorem sysT_t (f : BitVec 7) (t : RSpec) : rT (sysT f t) = t := by
  simp (disch := decide) only [rT, sysT, ext_hi, ext_lo, Nat.reduceSub, ext_all, bit_ofBool, bit_zero, ext_zero, join2, join7, join11, join16, join30, RSpec.dec_enc, OSpec.dec_enc]

theorem sysBA_root (f : BitVec 7) (b : OSpec) (a : RSpec) : rootOf (sysBA f b a) = 0x07#7 := by
  simp (disch := decide) only [rootOf, sysBA, ext_hi, ext_lo, Nat.reduceSub, ext_all, bit_ofBool, bit_zero, ext_zero, join2, join7, join11, join16, join30, RSpec.dec_enc, OSpec.dec_enc]
theorem sysBA_func (f : BitVec 7) (b : OSpec) (a : RSpec) : funcOf (sysBA f b a) = f := by
  simp (disch := decide) only [funcOf, sysBA, ext_hi, ext_lo, Nat.reduceSub, ext_all, bit_ofBool, bit_zero, ext_zero, join2, join7, join11, join16, join30, RSpec.dec_enc, OSpec.dec_enc]
theorem sysBA_vBit (f : BitVec 7) (b : OSpec) (a : RSpec) : vBit (sysBA f b a) = false := by
  simp (disch := decide) only [vBit, bit, sysBA, ext_hi, ext_lo, Nat.reduceSub, ext_all, bit_ofBool, bit_zero, ext_zero, join2, join7, join11, join16, join30, RSpec.dec_enc, OSpec.dec_enc]
theorem sysBA_b (f : BitVec 7) (b : OSpec) (a : RSpec) : rB (sysBA f b a) = b := by
  simp (disch := decide) only [rB, sysBA, ext_hi, ext_lo, Nat.reduceSub, ext_all, bit_ofBool, bit_zero, ext_zero, join2, join7, join11, join16, join30, RSpec.dec_enc, OSpec.dec_enc]
theorem sysBA_a (f : BitVec 7) (b : OSpec) (a : RSpec) : rA (sysBA f b a) = a := by
  simp (disch := decide) only [rA, sysBA, ext_hi, ext_lo, Nat.reduceSub, ext_all, bit_ofBool, bit_zero, ext_zero, join2, join7, join11, join16, join30, RSpec.dec_enc, OSpec.dec_enc]
theorem sysBA_codes (f : BitVec 7) (b : OSpec) (a : RSpec) : tVector (sysBA f b a) = false := by
  simp (disch := decide) only [tVector, bit, sysBA, ext_hi, ext_lo, Nat.reduceSub, ext_all, bit_ofBool, bit_zero, ext_zero, join2, join7, join11, join16, join30, RSpec.dec_enc, OSpec.dec_enc]

theorem sysAT_root (f : BitVec 7) (a t : RSpec) : rootOf (sysAT f a t) = 0x07#7 := by
  simp (disch := decide) only [rootOf, sysAT, ext_hi, ext_lo, Nat.reduceSub, ext_all, bit_ofBool, bit_zero, ext_zero, join2, join7, join11, join16, join30, RSpec.dec_enc, OSpec.dec_enc]
theorem sysAT_func (f : BitVec 7) (a t : RSpec) : funcOf (sysAT f a t) = f := by
  simp (disch := decide) only [funcOf, sysAT, ext_hi, ext_lo, Nat.reduceSub, ext_all, bit_ofBool, bit_zero, ext_zero, join2, join7, join11, join16, join30, RSpec.dec_enc, OSpec.dec_enc]
theorem sysAT_vBit (f : BitVec 7) (a t : RSpec) : vBit (sysAT f a t) = false := by
  simp (disch := decide) only [vBit, bit, sysAT, ext_hi, ext_lo, Nat.reduceSub, ext_all, bit_ofBool, bit_zero, ext_zero, join2, join7, join11, join16, join30, RSpec.dec_enc, OSpec.dec_enc]
theorem sysAT_a (f : BitVec 7) (a t : RSpec) : rA (sysAT f a t) = a := by
  simp (disch := decide) only [rA, sysAT, ext_hi, ext_lo, Nat.reduceSub, ext_all, bit_ofBool, bit_zero, ext_zero, join2, join7, join11, join16, join30, RSpec.dec_enc, OSpec.dec_enc]
theorem sysAT_t (f : BitVec 7) (a t : RSpec) : rT (sysAT f a t) = t := by
  simp (disch := decide) only [rT, sysAT, ext_hi, ext_lo, Nat.reduceSub, ext_all, bit_ofBool, bit_zero, ext_zero, join2, join7, join11, join16, join30, RSpec.dec_enc, OSpec.dec_enc]
theorem sysAT_codes (f : BitVec 7) (a t : RSpec) : bVector (sysAT f a t) = false := by
  simp (disch := decide) only [bVector, sysAT, ext_hi, ext_lo, Nat.reduceSub, ext_all, bit_ofBool, bit_zero, ext_zero, join2, join7, join11, join16, join30, RSpec.dec_enc, OSpec.dec_enc] <;> rfl

theorem sysQA_root (f : BitVec 7) (q : BitVec 6) (a : RSpec) : rootOf (sysQA f q a) = 0x07#7 := by
  simp (disch := decide) only [rootOf, sysQA, ext_hi, ext_lo, Nat.reduceSub, ext_all, bit_ofBool, bit_zero, ext_zero, join2, join7, join11, join16, join30, RSpec.dec_enc, OSpec.dec_enc]
theorem sysQA_func (f : BitVec 7) (q : BitVec 6) (a : RSpec) : funcOf (sysQA f q a) = f := by
  simp (disch := decide) only [funcOf, sysQA, ext_hi, ext_lo, Nat.reduceSub, ext_all, bit_ofBool, bit_zero, ext_zero, join2, join7, join11, join16, join30, RSpec.dec_enc, OSpec.dec_enc]
theorem sysQA_vBit (f : BitVec 7) (q : BitVec 6) (a : RSpec) : vBit (sysQA f q a) = false := by
  simp (disch := decide) only [vBit, bit, sysQA, ext_hi, ext_lo, Nat.reduceSub, ext_all, bit_ofBool, bit_zero, ext_zero, join2, join7, join11, join16, join30, RSpec.dec_enc, OSpec.dec_enc]
theorem sysQA_q (f : BitVec 7) (q : BitVec 6) (a : RSpec) : (sysQA f q a).extractLsb' 20 6 = q := by
  simp (disch := decide) only [sysQA, ext_hi, ext_lo, Nat.reduceSub, ext_all, bit_ofBool, bit_zero, ext_zero, join2, join7, join11, join16, join30, RSpec.dec_enc, OSpec.dec_enc]
theorem sysQA_a (f : BitVec 7) (q : BitVec 6) (a : RSpec) : rA (sysQA f q a) = a := by
  simp (disch := decide) only [rA, sysQA, ext_hi, ext_lo, Nat.reduceSub, ext_all, bit_ofBool, bit_zero, ext_zero, join2, join7, join11, join16, join30, RSpec.dec_enc, OSpec.dec_enc]
theorem sysQA_codes (f : BitVec 7) (q : BitVec 6) (a : RSpec) : tVector (sysQA f q a) = false := by
  simp (disch := decide) only [tVector, bit, sysQA, ext_hi, ext_lo, Nat.reduceSub, ext_all, bit_ofBool, bit_zero, ext_zero, join2, join7, join11, join16, join30, RSpec.dec_enc, OSpec.dec_enc]

theorem sysQT_root (f : BitVec 7) (q : BitVec 6) (t : RSpec) : rootOf (sysQT f q t) = 0x07#7 := by
  simp (disch := decide) only [rootOf, sysQT, ext_hi, ext_lo, Nat.reduceSub, ext_all, bit_ofBool, bit_zero, ext_zero, join2, join7, join11, join16, join30, RSpec.dec_enc, OSpec.dec_enc]
theorem sysQT_func (f : BitVec 7) (q : BitVec 6) (t : RSpec) : funcOf (sysQT f q t) = f := by
  simp (disch := decide) only [funcOf, sysQT, ext_hi, ext_lo, Nat.reduceSub, ext_all, bit_ofBool, bit_zero, ext_zero, join2, join7, join11, join16, join30, RSpec.dec_enc, OSpec.dec_enc]
theorem sysQT_vBit (f : BitVec 7) (q : BitVec 6) (t : RSpec) : vBit (sysQT f q t) = false := by
  simp (disch := decide) only [vBit, bit, sysQT, ext_hi, ext_lo, Nat.reduceSub, ext_all, bit_ofBool, bit_zero, ext_zero, join2, join7, join11, join16, join30, RSpec.dec_enc, OSpec.dec_enc]
theorem sysQT_q (f : BitVec 7) (q : BitVec 6) (t : RSpec) : (sysQT f q t).extractLsb' 14 6 = q := by
  simp (disch := decide) only [sysQT, ext_hi, ext_lo, Nat.reduceSub, ext_all, bit_ofBool, bit_zero, ext_zero, join2, join7, join11, join16, join30, RSpec.dec_enc, OSpec.dec_enc]
theorem sysQT_t (f : BitVec 7) (q : BitVec 6) (t : RSpec) : rT (sysQT f q t) = t := by
  simp (disch := decide) only [rT, sysQT, ext_hi, ext_lo, Nat.reduceSub, ext_all, bit_ofBool, bit_zero, ext_zero, join2, join7, join11, join16, join30, RSpec.dec_enc, OSpec.dec_enc]
theorem sysQT_codes (f : BitVec 7) (q : BitVec 6) (t : RSpec) : bVector (sysQT f q t) = false := by
  simp (disch := decide) only [bVector, sysQT, ext_hi, ext_lo, Nat.reduceSub, ext_all, bit_ofBool, bit_zero, ext_zero, join2, join7, join11, join16, join30, RSpec.dec_enc, OSpec.dec_enc] <;> rfl

theorem rexWord_root (tm : BitVec 2) : rootOf (rexWord tm) = 0x07#7 := by
  simp (disch := decide) only [rootOf, rexWord, ext_hi, ext_lo, Nat.reduceSub, ext_all, bit_ofBool, bit_zero, ext_zero, join2, join7, join11, join16, join30, RSpec.dec_enc, OSpec.dec_enc]
theorem rexWord_func (tm : BitVec 2) : funcOf (rexWord tm) = 0x10#7 := by
  simp (disch := decide) only [funcOf, rexWord, ext_hi, ext_lo, Nat.reduceSub, ext_all, bit_ofBool, bit_zero, ext_zero, join2, join7, join11, join16, join30, RSpec.dec_enc, OSpec.dec_enc]
theorem rexWord_vBit (tm : BitVec 2) : vBit (rexWord tm) = false := by
  simp (disch := decide) only [vBit, bit, rexWord, ext_hi, ext_lo, Nat.reduceSub, ext_all, bit_ofBool, bit_zero, ext_zero, join2, join7, join11, join16, join30, RSpec.dec_enc, OSpec.dec_enc]
theorem rexWord_tm (tm : BitVec 2) : (rexWord tm).extractLsb' 27 2 = tm := by
  simp (disch := decide) only [rexWord, ext_hi, ext_lo, Nat.reduceSub, ext_all, bit_ofBool, bit_zero, ext_zero, join2, join7, join11, join16, join30, RSpec.dec_enc, OSpec.dec_enc]

theorem rteWord_root (b : OSpec) (p : BitVec 12) : rootOf (rteWord b p) = 0x07#7 := by
  simp (disch := decide) only [rootOf, rteWord, ext_hi, ext_lo, Nat.reduceSub, ext_all, bit_ofBool, bit_zero, ext_zero, join2, join7, join11, join16, join30, RSpec.dec_enc, OSpec.dec_enc]
theorem rteWord_func (b : OSpec) (p : BitVec 12) : funcOf (rteWord b p) = 0x13#7 := by
  simp (disch := decide) only [funcOf, rteWord, ext_hi, ext_lo, Nat.reduceSub, ext_all, bit_ofBool, bit_zero, ext_zero, join2, join7, join11, join16, join30, RSpec.dec_enc, OSpec.dec_enc]
theorem rteWord_vBit (b : OSpec) (p : BitVec 12) : vBit (rteWord b p) = false := by
  simp (disch := decide) only [vBit, bit, rteWord, ext_hi, ext_lo, Nat.reduceSub, ext_all, bit_ofBool, bit_zero, ext_zero, join2, join7, join11, join16, join30, RSpec.dec_enc, OSpec.dec_enc]
theorem rteWord_b (b : OSpec) (p : BitVec 12) : rB (rteWord b p) = b := by
  simp (disch := decide) only [rB, rteWord, ext_hi, ext_lo, Nat.reduceSub, ext_all, bit_ofBool, bit_zero, ext_zero, join2, join7, join11, join16, join30, RSpec.dec_enc, OSpec.dec_enc]
theorem rteWord_offset (b : OSpec) (p : BitVec 12) : (rteWord b p).extractLsb' 8 12 = p := by
  simp (disch := decide) only [rteWord, ext_hi, ext_lo, Nat.reduceSub, ext_all, bit_ofBool, bit_zero, ext_zero, join2, join7, join11, join16, join30, RSpec.dec_enc, OSpec.dec_enc]

theorem jalWord_root (r : BitVec 7) (addr : BitVec 26) (rt : BitVec 2) : rootOf (jalWord r addr rt) = r := by
  simp (disch := decide) only [rootOf, jalWord, ext_hi, ext_lo, Nat.reduceSub, ext_all, bit_ofBool, bit_zero, ext_zero, join2, join7, join11, join16, join30, RSpec.dec_enc, OSpec.dec_enc]
theorem jalWord_vBit (r : BitVec 7) (addr : BitVec 26) (rt : BitVec 2) : vBit (jalWord r addr rt) = false := by
  simp (disch := decide) only [vBit, bit, jalWord, ext_hi, ext_lo, Nat.reduceSub, ext_all, bit_ofBool, bit_zero, ext_zero, join2, join7, join11, join16, join30, RSpec.dec_enc, OSpec.dec_enc]
theorem jalWord_addr (r : BitVec 7) (addr : BitVec 26) (rt : BitVec 2) : (jalWord r addr rt).extractLsb' 10 26 = addr := by
  simp (disch := decide) only [jalWord, ext_hi, ext_lo, Nat.reduceSub, ext_all, bit_ofBool, bit_zero, ext_zero, join2, join7, join11, join16, join30, RSpec.dec_enc, OSpec.dec_enc]
theorem jalWord_rt (r : BitVec 7) (addr : BitVec 26) (rt : BitVec 2) : (jalWord r addr rt).extractLsb' 8 2 = rt := by
  simp (disch := decide) only [jalWord, ext_hi, ext_lo, Nat.reduceSub, ext_all, bit_ofBool, bit_zero, ext_zero, join2, join7, join11, join16, join30, RSpec.dec_enc, OSpec.dec_enc]

theorem exiWord_root (r : BitVec 7) (p : BitVec 28) : rootOf (exiWord r p) = r := by
  simp (disch := decide) only [rootOf, exiWord, ext_hi, ext_lo, Nat.reduceSub, ext_all, bit_ofBool, bit_zero, ext_zero, join2, join7, join11, join16, join30, RSpec.dec_enc, OSpec.dec_enc]
theorem exiWord_vBit (r : BitVec 7) (p : BitVec 28) : vBit (exiWord r p) = false := by
  simp (disch := decide) only [vBit, bit, exiWord, ext_hi, ext_lo, Nat.reduceSub, ext_all, bit_ofBool, bit_zero, ext_zero, join2, join7, join11, join16, join30, RSpec.dec_enc, OSpec.dec_enc]
theorem exiWord_payload (r : BitVec 7) (p : BitVec 28) : (exiWord r p).extractLsb' 8 28 = p := by
  simp (disch := decide) only [exiWord, ext_hi, ext_lo, Nat.reduceSub, ext_all, bit_ofBool, bit_zero, ext_zero, join2, join7, join11, join16, join30, RSpec.dec_enc, OSpec.dec_enc]

theorem word20_root (p : BitVec 12) (op : BitVec 8) : rootOf (word20 p op) = op.extractLsb' 0 7 := by
  simp (disch := decide) only [rootOf, word20, ext_lo]
theorem word20_vBit (p : BitVec 12) (op : BitVec 8) : vBit (word20 p op) = (op.extractLsb' 7 1 == 1#1) := by
  simp (disch := decide) only [vBit, bit, word20, ext_lo]
theorem word20_field (p : BitVec 12) (op : BitVec 8) (k w : Nat) (h : 8 ≤ k) (h2 : k - 8 + w ≤ 12) :
    (word20 p op).extractLsb' k w = p.extractLsb' (k - 8) w := by
  rw [word20, ext_hi _ _ _ _ h, ext_lo _ _ _ _ h2]

theorem ext_ext {n : Nat} (a : BitVec n) (i k j w : Nat) (h : j + w ≤ k) :
    (a.extractLsb' i k).extractLsb' j w = a.extractLsb' (i + j) w := by
  ext q hq
  simp only [BitVec.getElem_extractLsb', BitVec.getLsbD_extractLsb']
  rw [decide_eq_true (by omega), Bool.true_and, Nat.add_assoc]
/-- The upper two of four bits as a number. -/
theorem ext_top (a : BitVec 4) : (a.extractLsb' 2 2).toNat = a.toNat / 4 := by
  revert a
  decide
/-- Bits 11:8 of the fields of opcode 7Ch: two constant pairs over eight further bits. -/
theorem seven_sel (a b : BitVec 2) (c : BitVec 3) (d : BitVec 2) (e : BitVec 3) :
    (a ++ b ++ c ++ d ++ e).extractLsb' 8 4 = a ++ b := by
  rw [ext_hi _ _ _ _ (by decide), ext_hi _ _ _ _ (by decide), ext_hi _ _ _ _ (by decide)]
  exact ext_all _

theorem reglistWord_vBit (l : BitVec 30) : vBit (reglistWord l) = false := by
  simp (disch := decide) only [vBit, bit, reglistWord, ext_lo, ext_hi, Nat.reduceSub]
  rfl
theorem reglistWord_root (l : BitVec 30) : rootOf (reglistWord l) = 0x17#5 ++ l.extractLsb' 0 2 := by
  apply BitVec.eq_of_getLsbD_eq
  intro i hi
  simp only [rootOf, reglistWord, BitVec.getLsbD_append, BitVec.getLsbD_extractLsb', Nat.zero_add]
  rcases i with _ | _ | _ | _ | _ | _ | _ | i
  all_goals first | rfl | omega
theorem reglistWord_list (l : BitVec 30) :
    (reglistWord l).extractLsb' 8 28 ++ (reglistWord l).extractLsb' 0 2 = l := by
  simp (disch := decide) only [reglistWord, ext_lo, ext_hi, Nat.reduceSub, ext_all, join30]

end Sys2Proof
end

