-- ==== Sys2Proof/Laws/Inner.lean ====
section
/-! SUPPORT. EXEC and MYST run a word as decoding it and running the instruction does. -/

namespace Sys2Proof.Machine

/-- What running a decoded word means for EXEC: an instruction it may run, or Unimplemented. -/
def ranDecoded (r : Except Reject Instr) (s : State) : Out :=
  match r with
  | .ok i => if i.runsInExec then exec i s else .next s.unimplemented
  | .error _ => .next s.unimplemented

theorem run20 (root : Nat) (w : BitVec 36) (s : State) :
    ranDecoded (decode20 root w) s = .next s.unimplemented := by
  have h70 : ∀ k r, ranDecoded (decode70 k r w) s = .next s.unimplemented := by
    intro k r
    unfold decode70
    split
    · split <;> rfl
    · rfl
  have h74 : ∀ a b, ranDecoded (decode74 a b w) s = .next s.unimplemented := by
    intro a b
    unfold decode74
    split
    · split <;> rfl
    all_goals rfl
  have h7c : ∀ a b, ranDecoded (decode7c a b w) s = .next s.unimplemented := by
    intro a b
    unfold decode7c
    split
    · rfl
    · rfl
    · rfl
    · split <;> rfl
  unfold decode20
  split <;> first | rfl | exact h70 _ _ | exact h74 _ _ | exact h7c _ _

theorem runR1_eq (func : Nat) (v : Bool) (w : BitVec 36) (s : State) :
    runR1 func v w s = ranDecoded (decodeR1 func v w) s := by
  unfold runR1 decodeR1
  split
  all_goals first | rfl | (cases v <;> rfl) | simp [ranDecoded, *]

theorem runR2_eq (func : Nat) (v : Bool) (w : BitVec 36) (s : State) :
    runR2 func v w s = ranDecoded (decodeR2 func v w) s := by
  unfold runR2 decodeR2
  split
  all_goals first | rfl | (cases v <;> rfl) | simp [ranDecoded, *]

theorem runR3_eq (func : Nat) (w : BitVec 36) (s : State) :
    runR3 func w s = ranDecoded (decodeR3 func w) s := by
  unfold runR3 decodeR3
  split
  all_goals first | rfl | simp [ranDecoded, *]

theorem runSys_eq (func : Nat) (v : Bool) (w : BitVec 36) (s : State) :
    runSys func v w s = ranDecoded (decodeSys func v w) s := by
  unfold runSys decodeSys withoutVector
  split
  all_goals first | rfl | (cases v <;> rfl) | (cases v <;> first | rfl | (simp only [Bool.false_eq_true, if_false]; split <;> rfl)) | simp [ranDecoded, *]

theorem runCsr_eq (op : Nat) (v : Bool) (w : BitVec 36) (s : State) :
    runCsr op v w s = ranDecoded (decodeCsr op v w) s := by
  unfold runCsr decodeCsr
  cases v
  · simp only [Bool.false_eq_true, if_false]
    split <;> first | rfl | (split <;> first | rfl | simp_all)
  · rfl

theorem runBytndx_eq (func4 : Nat) (w : BitVec 36) (s : State) :
    runBytndx func4 w s = ranDecoded (decodeBytndx func4 w) s := by
  unfold runBytndx decodeBytndx
  split
  all_goals first | rfl | simp [ranDecoded, *]

theorem runBtfld_eq (func : Nat) (w : BitVec 36) (s : State) :
    runBtfld func w s = ranDecoded (decodeBtfld func w) s := by
  unfold runBtfld decodeBtfld
  split
  all_goals first | rfl | simp [ranDecoded, *]

theorem runDf1_eq (func : Nat) (w : BitVec 36) (s : State) :
    runDf1 func w s = ranDecoded (decodeDf1 func w) s := by
  unfold runDf1 decodeDf1
  split
  all_goals first | rfl | simp [ranDecoded, *]

theorem runDf2_eq (func : Nat) (w : BitVec 36) (s : State) :
    runDf2 func w s = ranDecoded (decodeDf2 func w) s := by
  unfold runDf2 decodeDf2
  split
  all_goals first | rfl | simp [ranDecoded, *]

theorem runF1_eq (func : Nat) (w : BitVec 36) (s : State) :
    runF1 func w s = ranDecoded (decodeF1 func w) s := by
  unfold runF1 decodeF1
  split
  all_goals first | rfl | simp [ranDecoded, *]

theorem runF2_eq (func : Nat) (w : BitVec 36) (s : State) :
    runF2 func w s = ranDecoded (decodeF2 func w) s := by
  unfold runF2 decodeF2
  split
  all_goals first | rfl | simp [ranDecoded, *]

theorem runF3_eq (func : Nat) (w : BitVec 36) (s : State) :
    runF3 func w s = ranDecoded (decodeF3 func w) s := by
  unfold runF3 decodeF3
  split
  all_goals first | rfl | simp [ranDecoded, *]

theorem runPst1_eq (func : Nat) (w : BitVec 36) (s : State) :
    runPst1 func w s = ranDecoded (decodePst1 func w) s := by
  unfold runPst1 decodePst1
  split
  all_goals first | rfl | simp [ranDecoded, *]

theorem runPst2_eq (func : Nat) (w : BitVec 36) (s : State) :
    runPst2 func w s = ranDecoded (decodePst2 func w) s := by
  unfold runPst2 decodePst2
  split
  all_goals first | rfl | simp [ranDecoded, *]

theorem runVm_eq (func : Nat) (v : Bool) (w : BitVec 36) (s : State) :
    runVm func v w s = ranDecoded (decodeVm func v w) s := by
  unfold runVm decodeVm
  split
  all_goals first | rfl | (cases v <;> rfl) | simp [ranDecoded, *]

theorem runLoad60_eq (func4 : Nat) (w : BitVec 36) (s : State) :
    runLoad60 func4 w s = ranDecoded (decodeLoad60 func4 w) s := by
  unfold runLoad60 decodeLoad60
  split
  all_goals first | rfl | simp [ranDecoded, *]

theorem runLoad61_eq (func4 : Nat) (w : BitVec 36) (s : State) :
    runLoad61 func4 w s = ranDecoded (decodeLoad61 func4 w) s := by
  unfold runLoad61 decodeLoad61
  split
  all_goals first | rfl | simp [ranDecoded, *]

theorem runLoad64_eq (func4 : Nat) (w : BitVec 36) (s : State) :
    runLoad64 func4 w s = ranDecoded (decodeLoad64 func4 w) s := by
  unfold runLoad64 decodeLoad64
  split
  all_goals first | rfl | simp [ranDecoded, *]

theorem runLoad65_eq (func4 : Nat) (w : BitVec 36) (s : State) :
    runLoad65 func4 w s = ranDecoded (decodeLoad65 func4 w) s := by
  unfold runLoad65 decodeLoad65
  split
  all_goals first | rfl | simp [ranDecoded, *]

theorem runPop_eq (func4 : Nat) (w : BitVec 36) (s : State) :
    runPop func4 w s = ranDecoded (decodePop func4 w) s := by
  unfold runPop decodePop
  split
  all_goals first | rfl | simp [ranDecoded, *]

theorem runStore68_eq (func4 : Nat) (w : BitVec 36) (s : State) :
    runStore68 func4 w s = ranDecoded (decodeStore68 func4 w) s := by
  unfold runStore68 decodeStore68
  split
  all_goals first | rfl | simp [ranDecoded, *]

theorem runStore69_eq (func4 : Nat) (w : BitVec 36) (s : State) :
    runStore69 func4 w s = ranDecoded (decodeStore69 func4 w) s := by
  unfold runStore69 decodeStore69
  split
  all_goals first | rfl | simp [ranDecoded, *]

theorem runPush_eq (func4 : Nat) (w : BitVec 36) (s : State) :
    runPush func4 w s = ranDecoded (decodePush func4 w) s := by
  unfold runPush decodePush
  split
  all_goals first | rfl | simp [ranDecoded, *]

theorem runRoot_eq (root func func4 : Nat) (v : Bool) (w : BitVec 36) (s : State) :
    runRoot root func func4 v w s = ranDecoded (decodeRoot root func func4 v w) s := by
  unfold runRoot decodeRoot
  split
  all_goals first | rfl | (cases v <;> rfl) | exact runR1_eq .. | exact runR2_eq .. | exact runR3_eq .. | exact runSys_eq .. | exact runCsr_eq .. | exact runBytndx_eq .. | exact runBtfld_eq .. | exact runDf1_eq .. | exact runDf2_eq .. | exact runF1_eq .. | exact runF2_eq .. | exact runF3_eq .. | exact runPst1_eq .. | exact runPst2_eq .. | exact runVm_eq .. | (cases v <;> first | rfl | exact runLoad60_eq .. | exact runLoad61_eq .. | exact runLoad64_eq .. | exact runLoad65_eq .. | exact runPop_eq .. | exact runStore68_eq .. | exact runStore69_eq .. | exact runPush_eq .. | exact (run20 112 w s).symm | exact (run20 116 w s).symm | exact (run20 124 w s).symm) | simp [ranDecoded, *]

/-- With LEA_ENCODING and STZ_ENCODING at their defaults they assign no word. -/
@[simp] theorem supplied_eq (w : BitVec 36) (s : State) : supplied w s = none := rfl

/-- A word EXEC or MYST runs does what its decoding and `exec` do, where EXEC may run it (46 R550). -/
theorem runWord_eq (w : BitVec 36) (s : State) : runWord w s = ranDecoded (decode w) s :=
  runRoot_eq _ _ _ _ w s

end Sys2Proof.Machine
end

