-- ==== Sys2Proof/Laws/PerInstr.lean ====
section
/-! SUPPORT. Decoding the word of a well-formed instruction gives the instruction back, one lemma for each
constructor. -/

set_option linter.unusedSimpArgs false

namespace Sys2Proof

/-- The word of `i`, if `i` is well formed, decodes to `i`. -/
def Laws.RoundTrip.Statement (i : Instr) : Prop := i.wellFormed = true → decode i.encode = .ok i

/-- The decoder's arm, chosen by the fields it looks at. -/
theorem decode_arm {w : BitVec 36} {r : BitVec 7} {v : Bool} (hr : rootOf w = r) (hv : vBit w = v) :
    decode w = decodeRoot r.toNat (funcOf w).toNat (func4Of w).toNat v w := by
  subst hr hv
  rfl

theorem Laws.RoundTrip.brk (cause : BitVec 8) : Laws.RoundTrip.Statement (.brk cause) := by
  intro _
  show decode (brkWord cause) = _
  rw [decode_arm (brkWord_root ..) (brkWord_vBit ..)]
  show Except.ok (Instr.brk ((brkWord cause).extractLsb' 14 8)) = _
  simp only [brkWord_cause]
theorem Laws.RoundTrip.cntlz (v : Bool) (o : R1) : Laws.RoundTrip.Statement (.cntlz v o) := by
  intro _
  show decode (R1.enc 0x1#7 0x0#7 v 0#3 o) = _
  rw [decode_arm (R1.enc_root ..) (R1.enc_vBit ..), R1.enc_func]
  show Except.ok (Instr.cntlz (vBit (R1.enc 0x1#7 0x0#7 v 0#3 o)) (R1.dec (R1.enc 0x1#7 0x0#7 v 0#3 o))) = _
  simp only [R1.enc_dec, R1.enc_vBit, R1.enc_rm]
theorem Laws.RoundTrip.cntlo (v : Bool) (o : R1) : Laws.RoundTrip.Statement (.cntlo v o) := by
  intro _
  show decode (R1.enc 0x1#7 0x1#7 v 0#3 o) = _
  rw [decode_arm (R1.enc_root ..) (R1.enc_vBit ..), R1.enc_func]
  show Except.ok (Instr.cntlo (vBit (R1.enc 0x1#7 0x1#7 v 0#3 o)) (R1.dec (R1.enc 0x1#7 0x1#7 v 0#3 o))) = _
  simp only [R1.enc_dec, R1.enc_vBit, R1.enc_rm]
theorem Laws.RoundTrip.cntpop (v : Bool) (o : R1) : Laws.RoundTrip.Statement (.cntpop v o) := by
  intro _
  show decode (R1.enc 0x1#7 0x2#7 v 0#3 o) = _
  rw [decode_arm (R1.enc_root ..) (R1.enc_vBit ..), R1.enc_func]
  show Except.ok (Instr.cntpop (vBit (R1.enc 0x1#7 0x2#7 v 0#3 o)) (R1.dec (R1.enc 0x1#7 0x2#7 v 0#3 o))) = _
  simp only [R1.enc_dec, R1.enc_vBit, R1.enc_rm]
theorem Laws.RoundTrip.com (v : Bool) (o : R1) : Laws.RoundTrip.Statement (.com v o) := by
  intro _
  show decode (R1.enc 0x1#7 0x3#7 v 0#3 o) = _
  rw [decode_arm (R1.enc_root ..) (R1.enc_vBit ..), R1.enc_func]
  show Except.ok (Instr.com (vBit (R1.enc 0x1#7 0x3#7 v 0#3 o)) (R1.dec (R1.enc 0x1#7 0x3#7 v 0#3 o))) = _
  simp only [R1.enc_dec, R1.enc_vBit, R1.enc_rm]
theorem Laws.RoundTrip.not (v : Bool) (o : R1) : Laws.RoundTrip.Statement (.not v o) := by
  intro _
  show decode (R1.enc 0x1#7 0x4#7 v 0#3 o) = _
  rw [decode_arm (R1.enc_root ..) (R1.enc_vBit ..), R1.enc_func]
  show Except.ok (Instr.not (vBit (R1.enc 0x1#7 0x4#7 v 0#3 o)) (R1.dec (R1.enc 0x1#7 0x4#7 v 0#3 o))) = _
  simp only [R1.enc_dec, R1.enc_vBit, R1.enc_rm]
theorem Laws.RoundTrip.neg (v : Bool) (o : R1) : Laws.RoundTrip.Statement (.neg v o) := by
  intro _
  show decode (R1.enc 0x1#7 0x5#7 v 0#3 o) = _
  rw [decode_arm (R1.enc_root ..) (R1.enc_vBit ..), R1.enc_func]
  show Except.ok (Instr.neg (vBit (R1.enc 0x1#7 0x5#7 v 0#3 o)) (R1.dec (R1.enc 0x1#7 0x5#7 v 0#3 o))) = _
  simp only [R1.enc_dec, R1.enc_vBit, R1.enc_rm]
theorem Laws.RoundTrip.abs (v : Bool) (o : R1) : Laws.RoundTrip.Statement (.abs v o) := by
  intro _
  show decode (R1.enc 0x1#7 0x6#7 v 0#3 o) = _
  rw [decode_arm (R1.enc_root ..) (R1.enc_vBit ..), R1.enc_func]
  show Except.ok (Instr.abs (vBit (R1.enc 0x1#7 0x6#7 v 0#3 o)) (R1.dec (R1.enc 0x1#7 0x6#7 v 0#3 o))) = _
  simp only [R1.enc_dec, R1.enc_vBit, R1.enc_rm]
theorem Laws.RoundTrip.nabs (v : Bool) (o : R1) : Laws.RoundTrip.Statement (.nabs v o) := by
  intro _
  show decode (R1.enc 0x1#7 0x7#7 v 0#3 o) = _
  rw [decode_arm (R1.enc_root ..) (R1.enc_vBit ..), R1.enc_func]
  show Except.ok (Instr.nabs (vBit (R1.enc 0x1#7 0x7#7 v 0#3 o)) (R1.dec (R1.enc 0x1#7 0x7#7 v 0#3 o))) = _
  simp only [R1.enc_dec, R1.enc_vBit, R1.enc_rm]
theorem Laws.RoundTrip.sqrt (v : Bool) (o : R1) : Laws.RoundTrip.Statement (.sqrt v o) := by
  intro _
  show decode (R1.enc 0x1#7 0x8#7 v 0#3 o) = _
  rw [decode_arm (R1.enc_root ..) (R1.enc_vBit ..), R1.enc_func]
  show Except.ok (Instr.sqrt (vBit (R1.enc 0x1#7 0x8#7 v 0#3 o)) (R1.dec (R1.enc 0x1#7 0x8#7 v 0#3 o))) = _
  simp only [R1.enc_dec, R1.enc_vBit, R1.enc_rm]
theorem Laws.RoundTrip.tst (v : Bool) (o : R1) : Laws.RoundTrip.Statement (.tst v o) := by
  intro _
  show decode (R1.enc 0x1#7 0xb#7 v 0#3 o) = _
  rw [decode_arm (R1.enc_root ..) (R1.enc_vBit ..), R1.enc_func]
  show Except.ok (Instr.tst (vBit (R1.enc 0x1#7 0xb#7 v 0#3 o)) (R1.dec (R1.enc 0x1#7 0xb#7 v 0#3 o))) = _
  simp only [R1.enc_dec, R1.enc_vBit, R1.enc_rm]
theorem Laws.RoundTrip.zxb (v : Bool) (o : R1) : Laws.RoundTrip.Statement (.zxb v o) := by
  intro _
  show decode (R1.enc 0x1#7 0xc#7 v 0#3 o) = _
  rw [decode_arm (R1.enc_root ..) (R1.enc_vBit ..), R1.enc_func]
  show Except.ok (Instr.zxb (vBit (R1.enc 0x1#7 0xc#7 v 0#3 o)) (R1.dec (R1.enc 0x1#7 0xc#7 v 0#3 o))) = _
  simp only [R1.enc_dec, R1.enc_vBit, R1.enc_rm]
theorem Laws.RoundTrip.zxw (v : Bool) (o : R1) : Laws.RoundTrip.Statement (.zxw v o) := by
  intro _
  show decode (R1.enc 0x1#7 0xd#7 v 0#3 o) = _
  rw [decode_arm (R1.enc_root ..) (R1.enc_vBit ..), R1.enc_func]
  show Except.ok (Instr.zxw (vBit (R1.enc 0x1#7 0xd#7 v 0#3 o)) (R1.dec (R1.enc 0x1#7 0xd#7 v 0#3 o))) = _
  simp only [R1.enc_dec, R1.enc_vBit, R1.enc_rm]
theorem Laws.RoundTrip.zxt (v : Bool) (o : R1) : Laws.RoundTrip.Statement (.zxt v o) := by
  intro _
  show decode (R1.enc 0x1#7 0xe#7 v 0#3 o) = _
  rw [decode_arm (R1.enc_root ..) (R1.enc_vBit ..), R1.enc_func]
  show Except.ok (Instr.zxt (vBit (R1.enc 0x1#7 0xe#7 v 0#3 o)) (R1.dec (R1.enc 0x1#7 0xe#7 v 0#3 o))) = _
  simp only [R1.enc_dec, R1.enc_vBit, R1.enc_rm]
theorem Laws.RoundTrip.ptrinc (v : Bool) (o : R1) : Laws.RoundTrip.Statement (.ptrinc v o) := by
  intro _
  show decode (R1.enc 0x1#7 0x10#7 v 0#3 o) = _
  rw [decode_arm (R1.enc_root ..) (R1.enc_vBit ..), R1.enc_func]
  show Except.ok (Instr.ptrinc (vBit (R1.enc 0x1#7 0x10#7 v 0#3 o)) (R1.dec (R1.enc 0x1#7 0x10#7 v 0#3 o))) = _
  simp only [R1.enc_dec, R1.enc_vBit, R1.enc_rm]
theorem Laws.RoundTrip.transform (v : Bool) (o : R1) : Laws.RoundTrip.Statement (.transform v o) := by
  intro _
  show decode (R1.enc 0x1#7 0x11#7 v 0#3 o) = _
  rw [decode_arm (R1.enc_root ..) (R1.enc_vBit ..), R1.enc_func]
  show Except.ok (Instr.transform (vBit (R1.enc 0x1#7 0x11#7 v 0#3 o)) (R1.dec (R1.enc 0x1#7 0x11#7 v 0#3 o))) = _
  simp only [R1.enc_dec, R1.enc_vBit, R1.enc_rm]
theorem Laws.RoundTrip.sxb (v : Bool) (o : R1) : Laws.RoundTrip.Statement (.sxb v o) := by
  intro _
  show decode (R1.enc 0x1#7 0x14#7 v 0#3 o) = _
  rw [decode_arm (R1.enc_root ..) (R1.enc_vBit ..), R1.enc_func]
  show Except.ok (Instr.sxb (vBit (R1.enc 0x1#7 0x14#7 v 0#3 o)) (R1.dec (R1.enc 0x1#7 0x14#7 v 0#3 o))) = _
  simp only [R1.enc_dec, R1.enc_vBit, R1.enc_rm]
theorem Laws.RoundTrip.sxw (v : Bool) (o : R1) : Laws.RoundTrip.Statement (.sxw v o) := by
  intro _
  show decode (R1.enc 0x1#7 0x15#7 v 0#3 o) = _
  rw [decode_arm (R1.enc_root ..) (R1.enc_vBit ..), R1.enc_func]
  show Except.ok (Instr.sxw (vBit (R1.enc 0x1#7 0x15#7 v 0#3 o)) (R1.dec (R1.enc 0x1#7 0x15#7 v 0#3 o))) = _
  simp only [R1.enc_dec, R1.enc_vBit, R1.enc_rm]
theorem Laws.RoundTrip.sxt (v : Bool) (o : R1) : Laws.RoundTrip.Statement (.sxt v o) := by
  intro _
  show decode (R1.enc 0x1#7 0x16#7 v 0#3 o) = _
  rw [decode_arm (R1.enc_root ..) (R1.enc_vBit ..), R1.enc_func]
  show Except.ok (Instr.sxt (vBit (R1.enc 0x1#7 0x16#7 v 0#3 o)) (R1.dec (R1.enc 0x1#7 0x16#7 v 0#3 o))) = _
  simp only [R1.enc_dec, R1.enc_vBit, R1.enc_rm]
theorem Laws.RoundTrip.clip (v : Bool) (o : R1) : Laws.RoundTrip.Statement (.clip v o) := by
  intro _
  show decode (R1.enc 0x1#7 0x20#7 v 0#3 o) = _
  rw [decode_arm (R1.enc_root ..) (R1.enc_vBit ..), R1.enc_func]
  show Except.ok (Instr.clip (vBit (R1.enc 0x1#7 0x20#7 v 0#3 o)) (R1.dec (R1.enc 0x1#7 0x20#7 v 0#3 o))) = _
  simp only [R1.enc_dec, R1.enc_vBit, R1.enc_rm]
theorem Laws.RoundTrip.v2bits (o : R1) : Laws.RoundTrip.Statement (.v2bits o) := by
  intro _
  show decode (R1.enc 0x1#7 0x18#7 true 0#3 o) = _
  rw [decode_arm (R1.enc_root ..) (R1.enc_vBit ..), R1.enc_func]
  show Except.ok (Instr.v2bits (R1.dec (R1.enc 0x1#7 0x18#7 true 0#3 o))) = _
  simp only [R1.enc_dec, R1.enc_rm]
theorem Laws.RoundTrip.bits2v (o : R1) : Laws.RoundTrip.Statement (.bits2v o) := by
  intro _
  show decode (R1.enc 0x1#7 0x19#7 true 0#3 o) = _
  rw [decode_arm (R1.enc_root ..) (R1.enc_vBit ..), R1.enc_func]
  show Except.ok (Instr.bits2v (R1.dec (R1.enc 0x1#7 0x19#7 true 0#3 o))) = _
  simp only [R1.enc_dec, R1.enc_rm]
theorem Laws.RoundTrip.vcmprss (o : R1) : Laws.RoundTrip.Statement (.vcmprss o) := by
  intro _
  show decode (R1.enc 0x1#7 0x1c#7 true 0#3 o) = _
  rw [decode_arm (R1.enc_root ..) (R1.enc_vBit ..), R1.enc_func]
  show Except.ok (Instr.vcmprss (R1.dec (R1.enc 0x1#7 0x1c#7 true 0#3 o))) = _
  simp only [R1.enc_dec, R1.enc_rm]
theorem Laws.RoundTrip.vcidx (o : R1) : Laws.RoundTrip.Statement (.vcidx o) := by
  intro _
  show decode (R1.enc 0x1#7 0x1d#7 true 0#3 o) = _
  rw [decode_arm (R1.enc_root ..) (R1.enc_vBit ..), R1.enc_func]
  show Except.ok (Instr.vcidx (R1.dec (R1.enc 0x1#7 0x1d#7 true 0#3 o))) = _
  simp only [R1.enc_dec, R1.enc_rm]
theorem Laws.RoundTrip.vscan (o : R1) : Laws.RoundTrip.Statement (.vscan o) := by
  intro _
  show decode (R1.enc 0x1#7 0x1e#7 true 0#3 o) = _
  rw [decode_arm (R1.enc_root ..) (R1.enc_vBit ..), R1.enc_func]
  show Except.ok (Instr.vscan (R1.dec (R1.enc 0x1#7 0x1e#7 true 0#3 o))) = _
  simp only [R1.enc_dec, R1.enc_rm]
theorem Laws.RoundTrip.and (v : Bool) (o : R2) : Laws.RoundTrip.Statement (.and v o) := by
  intro _
  show decode (R2.enc 0x2#7 0x0#7 v 0#2 o) = _
  rw [decode_arm (R2.enc_root ..) (R2.enc_vBit ..), R2.enc_func]
  show Except.ok (Instr.and (vBit (R2.enc 0x2#7 0x0#7 v 0#2 o)) (R2.dec (R2.enc 0x2#7 0x0#7 v 0#2 o))) = _
  simp only [R2.enc_dec, R2.enc_vBit, R2.enc_opt]
theorem Laws.RoundTrip.or (v : Bool) (o : R2) : Laws.RoundTrip.Statement (.or v o) := by
  intro _
  show decode (R2.enc 0x2#7 0x1#7 v 0#2 o) = _
  rw [decode_arm (R2.enc_root ..) (R2.enc_vBit ..), R2.enc_func]
  show Except.ok (Instr.or (vBit (R2.enc 0x2#7 0x1#7 v 0#2 o)) (R2.dec (R2.enc 0x2#7 0x1#7 v 0#2 o))) = _
  simp only [R2.enc_dec, R2.enc_vBit, R2.enc_opt]
theorem Laws.RoundTrip.xor (v : Bool) (o : R2) : Laws.RoundTrip.Statement (.xor v o) := by
  intro _
  show decode (R2.enc 0x2#7 0x2#7 v 0#2 o) = _
  rw [decode_arm (R2.enc_root ..) (R2.enc_vBit ..), R2.enc_func]
  show Except.ok (Instr.xor (vBit (R2.enc 0x2#7 0x2#7 v 0#2 o)) (R2.dec (R2.enc 0x2#7 0x2#7 v 0#2 o))) = _
  simp only [R2.enc_dec, R2.enc_vBit, R2.enc_opt]
theorem Laws.RoundTrip.add (v : Bool) (o : R2) : Laws.RoundTrip.Statement (.add v o) := by
  intro _
  show decode (R2.enc 0x2#7 0x4#7 v 0#2 o) = _
  rw [decode_arm (R2.enc_root ..) (R2.enc_vBit ..), R2.enc_func]
  show Except.ok (Instr.add (vBit (R2.enc 0x2#7 0x4#7 v 0#2 o)) (R2.dec (R2.enc 0x2#7 0x4#7 v 0#2 o))) = _
  simp only [R2.enc_dec, R2.enc_vBit, R2.enc_opt]
theorem Laws.RoundTrip.sub (v : Bool) (o : R2) : Laws.RoundTrip.Statement (.sub v o) := by
  intro _
  show decode (R2.enc 0x2#7 0x5#7 v 0#2 o) = _
  rw [decode_arm (R2.enc_root ..) (R2.enc_vBit ..), R2.enc_func]
  show Except.ok (Instr.sub (vBit (R2.enc 0x2#7 0x5#7 v 0#2 o)) (R2.dec (R2.enc 0x2#7 0x5#7 v 0#2 o))) = _
  simp only [R2.enc_dec, R2.enc_vBit, R2.enc_opt]
theorem Laws.RoundTrip.nand (v : Bool) (o : R2) : Laws.RoundTrip.Statement (.nand v o) := by
  intro _
  show decode (R2.enc 0x2#7 0x8#7 v 0#2 o) = _
  rw [decode_arm (R2.enc_root ..) (R2.enc_vBit ..), R2.enc_func]
  show Except.ok (Instr.nand (vBit (R2.enc 0x2#7 0x8#7 v 0#2 o)) (R2.dec (R2.enc 0x2#7 0x8#7 v 0#2 o))) = _
  simp only [R2.enc_dec, R2.enc_vBit, R2.enc_opt]
theorem Laws.RoundTrip.nor (v : Bool) (o : R2) : Laws.RoundTrip.Statement (.nor v o) := by
  intro _
  show decode (R2.enc 0x2#7 0x9#7 v 0#2 o) = _
  rw [decode_arm (R2.enc_root ..) (R2.enc_vBit ..), R2.enc_func]
  show Except.ok (Instr.nor (vBit (R2.enc 0x2#7 0x9#7 v 0#2 o)) (R2.dec (R2.enc 0x2#7 0x9#7 v 0#2 o))) = _
  simp only [R2.enc_dec, R2.enc_vBit, R2.enc_opt]
theorem Laws.RoundTrip.xnor (v : Bool) (o : R2) : Laws.RoundTrip.Statement (.xnor v o) := by
  intro _
  show decode (R2.enc 0x2#7 0xa#7 v 0#2 o) = _
  rw [decode_arm (R2.enc_root ..) (R2.enc_vBit ..), R2.enc_func]
  show Except.ok (Instr.xnor (vBit (R2.enc 0x2#7 0xa#7 v 0#2 o)) (R2.dec (R2.enc 0x2#7 0xa#7 v 0#2 o))) = _
  simp only [R2.enc_dec, R2.enc_vBit, R2.enc_opt]
theorem Laws.RoundTrip.mulu (v : Bool) (o : R2) : Laws.RoundTrip.Statement (.mulu v o) := by
  intro _
  show decode (R2.enc 0x2#7 0xe#7 v 0#2 o) = _
  rw [decode_arm (R2.enc_root ..) (R2.enc_vBit ..), R2.enc_func]
  show Except.ok (Instr.mulu (vBit (R2.enc 0x2#7 0xe#7 v 0#2 o)) (R2.dec (R2.enc 0x2#7 0xe#7 v 0#2 o))) = _
  simp only [R2.enc_dec, R2.enc_vBit, R2.enc_opt]
theorem Laws.RoundTrip.mulh (v : Bool) (o : R2) : Laws.RoundTrip.Statement (.mulh v o) := by
  intro _
  show decode (R2.enc 0x2#7 0xf#7 v 0#2 o) = _
  rw [decode_arm (R2.enc_root ..) (R2.enc_vBit ..), R2.enc_func]
  show Except.ok (Instr.mulh (vBit (R2.enc 0x2#7 0xf#7 v 0#2 o)) (R2.dec (R2.enc 0x2#7 0xf#7 v 0#2 o))) = _
  simp only [R2.enc_dec, R2.enc_vBit, R2.enc_opt]
theorem Laws.RoundTrip.divu (v : Bool) (o : R2) : Laws.RoundTrip.Statement (.divu v o) := by
  intro _
  show decode (R2.enc 0x2#7 0x11#7 v 0#2 o) = _
  rw [decode_arm (R2.enc_root ..) (R2.enc_vBit ..), R2.enc_func]
  show Except.ok (Instr.divu (vBit (R2.enc 0x2#7 0x11#7 v 0#2 o)) (R2.dec (R2.enc 0x2#7 0x11#7 v 0#2 o))) = _
  simp only [R2.enc_dec, R2.enc_vBit, R2.enc_opt]
theorem Laws.RoundTrip.rem (v : Bool) (o : R2) : Laws.RoundTrip.Statement (.rem v o) := by
  intro _
  show decode (R2.enc 0x2#7 0x13#7 v 0#2 o) = _
  rw [decode_arm (R2.enc_root ..) (R2.enc_vBit ..), R2.enc_func]
  show Except.ok (Instr.rem (vBit (R2.enc 0x2#7 0x13#7 v 0#2 o)) (R2.dec (R2.enc 0x2#7 0x13#7 v 0#2 o))) = _
  simp only [R2.enc_dec, R2.enc_vBit, R2.enc_opt]
theorem Laws.RoundTrip.remu (v : Bool) (o : R2) : Laws.RoundTrip.Statement (.remu v o) := by
  intro _
  show decode (R2.enc 0x2#7 0x14#7 v 0#2 o) = _
  rw [decode_arm (R2.enc_root ..) (R2.enc_vBit ..), R2.enc_func]
  show Except.ok (Instr.remu (vBit (R2.enc 0x2#7 0x14#7 v 0#2 o)) (R2.dec (R2.enc 0x2#7 0x14#7 v 0#2 o))) = _
  simp only [R2.enc_dec, R2.enc_vBit, R2.enc_opt]
theorem Laws.RoundTrip.remsu (v : Bool) (o : R2) : Laws.RoundTrip.Statement (.remsu v o) := by
  intro _
  show decode (R2.enc 0x2#7 0x15#7 v 0#2 o) = _
  rw [decode_arm (R2.enc_root ..) (R2.enc_vBit ..), R2.enc_func]
  show Except.ok (Instr.remsu (vBit (R2.enc 0x2#7 0x15#7 v 0#2 o)) (R2.dec (R2.enc 0x2#7 0x15#7 v 0#2 o))) = _
  simp only [R2.enc_dec, R2.enc_vBit, R2.enc_opt]
theorem Laws.RoundTrip.mulsu (v : Bool) (o : R2) : Laws.RoundTrip.Statement (.mulsu v o) := by
  intro _
  show decode (R2.enc 0x2#7 0x16#7 v 0#2 o) = _
  rw [decode_arm (R2.enc_root ..) (R2.enc_vBit ..), R2.enc_func]
  show Except.ok (Instr.mulsu (vBit (R2.enc 0x2#7 0x16#7 v 0#2 o)) (R2.dec (R2.enc 0x2#7 0x16#7 v 0#2 o))) = _
  simp only [R2.enc_dec, R2.enc_vBit, R2.enc_opt]
theorem Laws.RoundTrip.perm (v : Bool) (o : R2) : Laws.RoundTrip.Statement (.perm v o) := by
  intro _
  show decode (R2.enc 0x2#7 0x17#7 v 0#2 o) = _
  rw [decode_arm (R2.enc_root ..) (R2.enc_vBit ..), R2.enc_func]
  show Except.ok (Instr.perm (vBit (R2.enc 0x2#7 0x17#7 v 0#2 o)) (R2.dec (R2.enc 0x2#7 0x17#7 v 0#2 o))) = _
  simp only [R2.enc_dec, R2.enc_vBit, R2.enc_opt]
theorem Laws.RoundTrip.dif (v : Bool) (o : R2) : Laws.RoundTrip.Statement (.dif v o) := by
  intro _
  show decode (R2.enc 0x2#7 0x18#7 v 0#2 o) = _
  rw [decode_arm (R2.enc_root ..) (R2.enc_vBit ..), R2.enc_func]
  show Except.ok (Instr.dif (vBit (R2.enc 0x2#7 0x18#7 v 0#2 o)) (R2.dec (R2.enc 0x2#7 0x18#7 v 0#2 o))) = _
  simp only [R2.enc_dec, R2.enc_vBit, R2.enc_opt]
theorem Laws.RoundTrip.wydndx (v : Bool) (o : R2) : Laws.RoundTrip.Statement (.wydndx v o) := by
  intro _
  show decode (R2.enc 0x2#7 0x1b#7 v 0#2 o) = _
  rw [decode_arm (R2.enc_root ..) (R2.enc_vBit ..), R2.enc_func]
  show Except.ok (Instr.wydndx (vBit (R2.enc 0x2#7 0x1b#7 v 0#2 o)) (R2.dec (R2.enc 0x2#7 0x1b#7 v 0#2 o))) = _
  simp only [R2.enc_dec, R2.enc_vBit, R2.enc_opt]
theorem Laws.RoundTrip.mulf (v : Bool) (o : R2) : Laws.RoundTrip.Statement (.mulf v o) := by
  intro _
  show decode (R2.enc 0x2#7 0x1c#7 v 0#2 o) = _
  rw [decode_arm (R2.enc_root ..) (R2.enc_vBit ..), R2.enc_func]
  show Except.ok (Instr.mulf (vBit (R2.enc 0x2#7 0x1c#7 v 0#2 o)) (R2.dec (R2.enc 0x2#7 0x1c#7 v 0#2 o))) = _
  simp only [R2.enc_dec, R2.enc_vBit, R2.enc_opt]
theorem Laws.RoundTrip.mulsuh (v : Bool) (o : R2) : Laws.RoundTrip.Statement (.mulsuh v o) := by
  intro _
  show decode (R2.enc 0x2#7 0x1d#7 v 0#2 o) = _
  rw [decode_arm (R2.enc_root ..) (R2.enc_vBit ..), R2.enc_func]
  show Except.ok (Instr.mulsuh (vBit (R2.enc 0x2#7 0x1d#7 v 0#2 o)) (R2.dec (R2.enc 0x2#7 0x1d#7 v 0#2 o))) = _
  simp only [R2.enc_dec, R2.enc_vBit, R2.enc_opt]
theorem Laws.RoundTrip.muluh (v : Bool) (o : R2) : Laws.RoundTrip.Statement (.muluh v o) := by
  intro _
  show decode (R2.enc 0x2#7 0x1e#7 v 0#2 o) = _
  rw [decode_arm (R2.enc_root ..) (R2.enc_vBit ..), R2.enc_func]
  show Except.ok (Instr.muluh (vBit (R2.enc 0x2#7 0x1e#7 v 0#2 o)) (R2.dec (R2.enc 0x2#7 0x1e#7 v 0#2 o))) = _
  simp only [R2.enc_dec, R2.enc_vBit, R2.enc_opt]
theorem Laws.RoundTrip.cmp (v : Bool) (o : R2) : Laws.RoundTrip.Statement (.cmp v o) := by
  intro _
  show decode (R2.enc 0x2#7 0x20#7 v 0#2 o) = _
  rw [decode_arm (R2.enc_root ..) (R2.enc_vBit ..), R2.enc_func]
  show Except.ok (Instr.cmp (vBit (R2.enc 0x2#7 0x20#7 v 0#2 o)) (R2.dec (R2.enc 0x2#7 0x20#7 v 0#2 o))) = _
  simp only [R2.enc_dec, R2.enc_vBit, R2.enc_opt]
theorem Laws.RoundTrip.u21ndx (v : Bool) (o : R2) : Laws.RoundTrip.Statement (.u21ndx v o) := by
  intro _
  show decode (R2.enc 0x2#7 0x23#7 v 0#2 o) = _
  rw [decode_arm (R2.enc_root ..) (R2.enc_vBit ..), R2.enc_func]
  show Except.ok (Instr.u21ndx (vBit (R2.enc 0x2#7 0x23#7 v 0#2 o)) (R2.dec (R2.enc 0x2#7 0x23#7 v 0#2 o))) = _
  simp only [R2.enc_dec, R2.enc_vBit, R2.enc_opt]
theorem Laws.RoundTrip.seq (v : Bool) (o : R2) : Laws.RoundTrip.Statement (.seq v o) := by
  intro _
  show decode (R2.enc 0x2#7 0x26#7 v 0#2 o) = _
  rw [decode_arm (R2.enc_root ..) (R2.enc_vBit ..), R2.enc_func]
  show Except.ok (Instr.seq (vBit (R2.enc 0x2#7 0x26#7 v 0#2 o)) (R2.dec (R2.enc 0x2#7 0x26#7 v 0#2 o))) = _
  simp only [R2.enc_dec, R2.enc_vBit, R2.enc_opt]
theorem Laws.RoundTrip.sne (v : Bool) (o : R2) : Laws.RoundTrip.Statement (.sne v o) := by
  intro _
  show decode (R2.enc 0x2#7 0x27#7 v 0#2 o) = _
  rw [decode_arm (R2.enc_root ..) (R2.enc_vBit ..), R2.enc_func]
  show Except.ok (Instr.sne (vBit (R2.enc 0x2#7 0x27#7 v 0#2 o)) (R2.dec (R2.enc 0x2#7 0x27#7 v 0#2 o))) = _
  simp only [R2.enc_dec, R2.enc_vBit, R2.enc_opt]
theorem Laws.RoundTrip.min (v : Bool) (o : R2) : Laws.RoundTrip.Statement (.min v o) := by
  intro _
  show decode (R2.enc 0x2#7 0x28#7 v 0#2 o) = _
  rw [decode_arm (R2.enc_root ..) (R2.enc_vBit ..), R2.enc_func]
  show Except.ok (Instr.min (vBit (R2.enc 0x2#7 0x28#7 v 0#2 o)) (R2.dec (R2.enc 0x2#7 0x28#7 v 0#2 o))) = _
  simp only [R2.enc_dec, R2.enc_vBit, R2.enc_opt]
theorem Laws.RoundTrip.max (v : Bool) (o : R2) : Laws.RoundTrip.Statement (.max v o) := by
  intro _
  show decode (R2.enc 0x2#7 0x29#7 v 0#2 o) = _
  rw [decode_arm (R2.enc_root ..) (R2.enc_vBit ..), R2.enc_func]
  show Except.ok (Instr.max (vBit (R2.enc 0x2#7 0x29#7 v 0#2 o)) (R2.dec (R2.enc 0x2#7 0x29#7 v 0#2 o))) = _
  simp only [R2.enc_dec, R2.enc_vBit, R2.enc_opt]
theorem Laws.RoundTrip.slt (v : Bool) (o : R2) : Laws.RoundTrip.Statement (.slt v o) := by
  intro _
  show decode (R2.enc 0x2#7 0x2c#7 v 0#2 o) = _
  rw [decode_arm (R2.enc_root ..) (R2.enc_vBit ..), R2.enc_func]
  show Except.ok (Instr.slt (vBit (R2.enc 0x2#7 0x2c#7 v 0#2 o)) (R2.dec (R2.enc 0x2#7 0x2c#7 v 0#2 o))) = _
  simp only [R2.enc_dec, R2.enc_vBit, R2.enc_opt]
theorem Laws.RoundTrip.sge (v : Bool) (o : R2) : Laws.RoundTrip.Statement (.sge v o) := by
  intro _
  show decode (R2.enc 0x2#7 0x2d#7 v 0#2 o) = _
  rw [decode_arm (R2.enc_root ..) (R2.enc_vBit ..), R2.enc_func]
  show Except.ok (Instr.sge (vBit (R2.enc 0x2#7 0x2d#7 v 0#2 o)) (R2.dec (R2.enc 0x2#7 0x2d#7 v 0#2 o))) = _
  simp only [R2.enc_dec, R2.enc_vBit, R2.enc_opt]
theorem Laws.RoundTrip.sltu (v : Bool) (o : R2) : Laws.RoundTrip.Statement (.sltu v o) := by
  intro _
  show decode (R2.enc 0x2#7 0x2e#7 v 0#2 o) = _
  rw [decode_arm (R2.enc_root ..) (R2.enc_vBit ..), R2.enc_func]
  show Except.ok (Instr.sltu (vBit (R2.enc 0x2#7 0x2e#7 v 0#2 o)) (R2.dec (R2.enc 0x2#7 0x2e#7 v 0#2 o))) = _
  simp only [R2.enc_dec, R2.enc_vBit, R2.enc_opt]
theorem Laws.RoundTrip.sgeu (v : Bool) (o : R2) : Laws.RoundTrip.Statement (.sgeu v o) := by
  intro _
  show decode (R2.enc 0x2#7 0x2f#7 v 0#2 o) = _
  rw [decode_arm (R2.enc_root ..) (R2.enc_vBit ..), R2.enc_func]
  show Except.ok (Instr.sgeu (vBit (R2.enc 0x2#7 0x2f#7 v 0#2 o)) (R2.dec (R2.enc 0x2#7 0x2f#7 v 0#2 o))) = _
  simp only [R2.enc_dec, R2.enc_vBit, R2.enc_opt]
theorem Laws.RoundTrip.mor (v : Bool) (o : R2) : Laws.RoundTrip.Statement (.mor v o) := by
  intro _
  show decode (R2.enc 0x2#7 0x30#7 v 0#2 o) = _
  rw [decode_arm (R2.enc_root ..) (R2.enc_vBit ..), R2.enc_func]
  show Except.ok (Instr.mor (vBit (R2.enc 0x2#7 0x30#7 v 0#2 o)) (R2.dec (R2.enc 0x2#7 0x30#7 v 0#2 o))) = _
  simp only [R2.enc_dec, R2.enc_vBit, R2.enc_opt]
theorem Laws.RoundTrip.mxor (v : Bool) (o : R2) : Laws.RoundTrip.Statement (.mxor v o) := by
  intro _
  show decode (R2.enc 0x2#7 0x31#7 v 0#2 o) = _
  rw [decode_arm (R2.enc_root ..) (R2.enc_vBit ..), R2.enc_func]
  show Except.ok (Instr.mxor (vBit (R2.enc 0x2#7 0x31#7 v 0#2 o)) (R2.dec (R2.enc 0x2#7 0x31#7 v 0#2 o))) = _
  simp only [R2.enc_dec, R2.enc_vBit, R2.enc_opt]
theorem Laws.RoundTrip.mort (v : Bool) (o : R2) : Laws.RoundTrip.Statement (.mort v o) := by
  intro _
  show decode (R2.enc 0x2#7 0x32#7 v 0#2 o) = _
  rw [decode_arm (R2.enc_root ..) (R2.enc_vBit ..), R2.enc_func]
  show Except.ok (Instr.mort (vBit (R2.enc 0x2#7 0x32#7 v 0#2 o)) (R2.dec (R2.enc 0x2#7 0x32#7 v 0#2 o))) = _
  simp only [R2.enc_dec, R2.enc_vBit, R2.enc_opt]
theorem Laws.RoundTrip.mxort (v : Bool) (o : R2) : Laws.RoundTrip.Statement (.mxort v o) := by
  intro _
  show decode (R2.enc 0x2#7 0x33#7 v 0#2 o) = _
  rw [decode_arm (R2.enc_root ..) (R2.enc_vBit ..), R2.enc_func]
  show Except.ok (Instr.mxort (vBit (R2.enc 0x2#7 0x33#7 v 0#2 o)) (R2.dec (R2.enc 0x2#7 0x33#7 v 0#2 o))) = _
  simp only [R2.enc_dec, R2.enc_vBit, R2.enc_opt]
theorem Laws.RoundTrip.plot (v : Bool) (o : R2) : Laws.RoundTrip.Statement (.plot v o) := by
  intro _
  show decode (R2.enc 0x2#7 0x34#7 v 0#2 o) = _
  rw [decode_arm (R2.enc_root ..) (R2.enc_vBit ..), R2.enc_func]
  show Except.ok (Instr.plot (vBit (R2.enc 0x2#7 0x34#7 v 0#2 o)) (R2.dec (R2.enc 0x2#7 0x34#7 v 0#2 o))) = _
  simp only [R2.enc_dec, R2.enc_vBit, R2.enc_opt]
theorem Laws.RoundTrip.sll (v : Bool) (o : R2) : Laws.RoundTrip.Statement (.sll v o) := by
  intro _
  show decode (R2.enc 0x2#7 0x40#7 v 0#2 o) = _
  rw [decode_arm (R2.enc_root ..) (R2.enc_vBit ..), R2.enc_func]
  show Except.ok (Instr.sll (vBit (R2.enc 0x2#7 0x40#7 v 0#2 o)) (R2.dec (R2.enc 0x2#7 0x40#7 v 0#2 o))) = _
  simp only [R2.enc_dec, R2.enc_vBit, R2.enc_opt]
theorem Laws.RoundTrip.srl (v : Bool) (o : R2) : Laws.RoundTrip.Statement (.srl v o) := by
  intro _
  show decode (R2.enc 0x2#7 0x41#7 v 0#2 o) = _
  rw [decode_arm (R2.enc_root ..) (R2.enc_vBit ..), R2.enc_func]
  show Except.ok (Instr.srl (vBit (R2.enc 0x2#7 0x41#7 v 0#2 o)) (R2.dec (R2.enc 0x2#7 0x41#7 v 0#2 o))) = _
  simp only [R2.enc_dec, R2.enc_vBit, R2.enc_opt]
theorem Laws.RoundTrip.sra (v : Bool) (o : R2) : Laws.RoundTrip.Statement (.sra v o) := by
  intro _
  show decode (R2.enc 0x2#7 0x42#7 v 0#2 o) = _
  rw [decode_arm (R2.enc_root ..) (R2.enc_vBit ..), R2.enc_func]
  show Except.ok (Instr.sra (vBit (R2.enc 0x2#7 0x42#7 v 0#2 o)) (R2.dec (R2.enc 0x2#7 0x42#7 v 0#2 o))) = _
  simp only [R2.enc_dec, R2.enc_vBit, R2.enc_opt]
theorem Laws.RoundTrip.rol (v : Bool) (o : R2) : Laws.RoundTrip.Statement (.rol v o) := by
  intro _
  show decode (R2.enc 0x2#7 0x43#7 v 0#2 o) = _
  rw [decode_arm (R2.enc_root ..) (R2.enc_vBit ..), R2.enc_func]
  show Except.ok (Instr.rol (vBit (R2.enc 0x2#7 0x43#7 v 0#2 o)) (R2.dec (R2.enc 0x2#7 0x43#7 v 0#2 o))) = _
  simp only [R2.enc_dec, R2.enc_vBit, R2.enc_opt]
theorem Laws.RoundTrip.ror (v : Bool) (o : R2) : Laws.RoundTrip.Statement (.ror v o) := by
  intro _
  show decode (R2.enc 0x2#7 0x44#7 v 0#2 o) = _
  rw [decode_arm (R2.enc_root ..) (R2.enc_vBit ..), R2.enc_func]
  show Except.ok (Instr.ror (vBit (R2.enc 0x2#7 0x44#7 v 0#2 o)) (R2.dec (R2.enc 0x2#7 0x44#7 v 0#2 o))) = _
  simp only [R2.enc_dec, R2.enc_vBit, R2.enc_opt]
theorem Laws.RoundTrip.mul (v : Bool) (opt : BitVec 2) (o : R2) : Laws.RoundTrip.Statement (.mul v opt o) := by
  intro _
  show decode (R2.enc 0x2#7 0x6#7 v opt o) = _
  rw [decode_arm (R2.enc_root ..) (R2.enc_vBit ..), R2.enc_func]
  show Except.ok (Instr.mul (vBit (R2.enc 0x2#7 0x6#7 v opt o)) ((R2.enc 0x2#7 0x6#7 v opt o).extractLsb' 27 2) (R2.dec (R2.enc 0x2#7 0x6#7 v opt o))) = _
  simp only [R2.enc_dec, R2.enc_vBit, R2.enc_opt]
theorem Laws.RoundTrip.div (v : Bool) (opt : BitVec 2) (o : R2) : Laws.RoundTrip.Statement (.div v opt o) := by
  intro _
  show decode (R2.enc 0x2#7 0x10#7 v opt o) = _
  rw [decode_arm (R2.enc_root ..) (R2.enc_vBit ..), R2.enc_func]
  show Except.ok (Instr.div (vBit (R2.enc 0x2#7 0x10#7 v opt o)) ((R2.enc 0x2#7 0x10#7 v opt o).extractLsb' 27 2) (R2.dec (R2.enc 0x2#7 0x10#7 v opt o))) = _
  simp only [R2.enc_dec, R2.enc_vBit, R2.enc_opt]
theorem Laws.RoundTrip.divsu (v : Bool) (opt : BitVec 2) (o : R2) : Laws.RoundTrip.Statement (.divsu v opt o) := by
  intro _
  show decode (R2.enc 0x2#7 0x12#7 v opt o) = _
  rw [decode_arm (R2.enc_root ..) (R2.enc_vBit ..), R2.enc_func]
  show Except.ok (Instr.divsu (vBit (R2.enc 0x2#7 0x12#7 v opt o)) ((R2.enc 0x2#7 0x12#7 v opt o).extractLsb' 27 2) (R2.dec (R2.enc 0x2#7 0x12#7 v opt o))) = _
  simp only [R2.enc_dec, R2.enc_vBit, R2.enc_opt]
theorem Laws.RoundTrip.myst (o : R2) : Laws.RoundTrip.Statement (.myst o) := by
  intro _
  show decode (R2.enc 0x2#7 0x1f#7 false 0#2 o) = _
  rw [decode_arm (R2.enc_root ..) (R2.enc_vBit ..), R2.enc_func]
  show Except.ok (Instr.myst (R2.dec (R2.enc 0x2#7 0x1f#7 false 0#2 o))) = _
  simp only [R2.enc_dec, R2.enc_opt]
theorem Laws.RoundTrip.rwCoeff (o : R2) : Laws.RoundTrip.Statement (.rwCoeff o) := by
  intro _
  show decode (R2.enc 0x2#7 0x3e#7 false 0#2 o) = _
  rw [decode_arm (R2.enc_root ..) (R2.enc_vBit ..), R2.enc_func]
  show Except.ok (Instr.rwCoeff (R2.dec (R2.enc 0x2#7 0x3e#7 false 0#2 o))) = _
  simp only [R2.enc_dec, R2.enc_opt]
theorem Laws.RoundTrip.slli (v : Bool) (o : R2I) : Laws.RoundTrip.Statement (.slli v o) := by
  intro _
  show decode (R2I.enc 0x2#7 0x48#7 v o) = _
  rw [decode_arm (R2I.enc_root ..) (R2I.enc_vBit ..), R2I.enc_func]
  show Except.ok (Instr.slli (vBit (R2I.enc 0x2#7 0x48#7 v o)) (R2I.dec (R2I.enc 0x2#7 0x48#7 v o))) = _
  simp only [R2I.enc_dec, R2I.enc_vBit]
theorem Laws.RoundTrip.srli (v : Bool) (o : R2I) : Laws.RoundTrip.Statement (.srli v o) := by
  intro _
  show decode (R2I.enc 0x2#7 0x49#7 v o) = _
  rw [decode_arm (R2I.enc_root ..) (R2I.enc_vBit ..), R2I.enc_func]
  show Except.ok (Instr.srli (vBit (R2I.enc 0x2#7 0x49#7 v o)) (R2I.dec (R2I.enc 0x2#7 0x49#7 v o))) = _
  simp only [R2I.enc_dec, R2I.enc_vBit]
theorem Laws.RoundTrip.srai (v : Bool) (o : R2I) : Laws.RoundTrip.Statement (.srai v o) := by
  intro _
  show decode (R2I.enc 0x2#7 0x4a#7 v o) = _
  rw [decode_arm (R2I.enc_root ..) (R2I.enc_vBit ..), R2I.enc_func]
  show Except.ok (Instr.srai (vBit (R2I.enc 0x2#7 0x4a#7 v o)) (R2I.dec (R2I.enc 0x2#7 0x4a#7 v o))) = _
  simp only [R2I.enc_dec, R2I.enc_vBit]
theorem Laws.RoundTrip.roli (v : Bool) (o : R2I) : Laws.RoundTrip.Statement (.roli v o) := by
  intro _
  show decode (R2I.enc 0x2#7 0x4b#7 v o) = _
  rw [decode_arm (R2I.enc_root ..) (R2I.enc_vBit ..), R2I.enc_func]
  show Except.ok (Instr.roli (vBit (R2I.enc 0x2#7 0x4b#7 v o)) (R2I.dec (R2I.enc 0x2#7 0x4b#7 v o))) = _
  simp only [R2I.enc_dec, R2I.enc_vBit]
theorem Laws.RoundTrip.rori (v : Bool) (o : R2I) : Laws.RoundTrip.Statement (.rori v o) := by
  intro _
  show decode (R2I.enc 0x2#7 0x4c#7 v o) = _
  rw [decode_arm (R2I.enc_root ..) (R2I.enc_vBit ..), R2I.enc_func]
  show Except.ok (Instr.rori (vBit (R2I.enc 0x2#7 0x4c#7 v o)) (R2I.dec (R2I.enc 0x2#7 0x4c#7 v o))) = _
  simp only [R2I.enc_dec, R2I.enc_vBit]
theorem Laws.RoundTrip.mulfDuplicate (v : Bool) (o : R2) : Laws.RoundTrip.Statement (.mulfDuplicate v o) := by
  intro _
  show decode (R2.enc 0x2#7 0xd#7 v 0#2 o) = _
  rw [decode_arm (R2.enc_root ..) (R2.enc_vBit ..), R2.enc_func]
  show Except.ok (Instr.mulfDuplicate (vBit (R2.enc 0x2#7 0xd#7 v 0#2 o)) (R2.dec (R2.enc 0x2#7 0xd#7 v 0#2 o))) = _
  simp only [R2.enc_dec, R2.enc_vBit, R2.enc_opt]
theorem Laws.RoundTrip.vsllv (o : R2) : Laws.RoundTrip.Statement (.vsllv o) := by
  intro _
  show decode (R2.enc 0x2#7 0x38#7 true 0#2 o) = _
  rw [decode_arm (R2.enc_root ..) (R2.enc_vBit ..), R2.enc_func]
  show Except.ok (Instr.vsllv (R2.dec (R2.enc 0x2#7 0x38#7 true 0#2 o))) = _
  simp only [R2.enc_dec, R2.enc_opt]
theorem Laws.RoundTrip.vsrlv (o : R2) : Laws.RoundTrip.Statement (.vsrlv o) := by
  intro _
  show decode (R2.enc 0x2#7 0x39#7 true 0#2 o) = _
  rw [decode_arm (R2.enc_root ..) (R2.enc_vBit ..), R2.enc_func]
  show Except.ok (Instr.vsrlv (R2.dec (R2.enc 0x2#7 0x39#7 true 0#2 o))) = _
  simp only [R2.enc_dec, R2.enc_opt]
theorem Laws.RoundTrip.vex (o : R2) : Laws.RoundTrip.Statement (.vex o) := by
  intro _
  show decode (R2.enc 0x2#7 0x3a#7 true 0#2 o) = _
  rw [decode_arm (R2.enc_root ..) (R2.enc_vBit ..), R2.enc_func]
  show Except.ok (Instr.vex (R2.dec (R2.enc 0x2#7 0x3a#7 true 0#2 o))) = _
  simp only [R2.enc_dec, R2.enc_opt]
theorem Laws.RoundTrip.veins (o : R2) : Laws.RoundTrip.Statement (.veins o) := by
  intro _
  show decode (R2.enc 0x2#7 0x3b#7 true 0#2 o) = _
  rw [decode_arm (R2.enc_root ..) (R2.enc_vBit ..), R2.enc_func]
  show Except.ok (Instr.veins (R2.dec (R2.enc 0x2#7 0x3b#7 true 0#2 o))) = _
  simp only [R2.enc_dec, R2.enc_opt]
theorem Laws.RoundTrip.mux (v : Bool) (o : R2) : Laws.RoundTrip.Statement (.mux v o) := by
  intro _
  show decode (R2.enc 0x3#7 0x4#7 v 0#2 o) = _
  rw [decode_arm (R2.enc_root ..) (R2.enc_vBit ..), R2.enc_func]
  show Except.ok (Instr.mux (vBit (R2.enc 0x3#7 0x4#7 v 0#2 o)) (R2.dec (R2.enc 0x3#7 0x4#7 v 0#2 o))) = _
  simp only [R2.enc_dec, R2.enc_vBit, R2.enc_opt]
theorem Laws.RoundTrip.sllp (v : Bool) (o : R2) : Laws.RoundTrip.Statement (.sllp v o) := by
  intro _
  show decode (R2.enc 0x3#7 0x10#7 v 0#2 o) = _
  rw [decode_arm (R2.enc_root ..) (R2.enc_vBit ..), R2.enc_func]
  show Except.ok (Instr.sllp (vBit (R2.enc 0x3#7 0x10#7 v 0#2 o)) (R2.dec (R2.enc 0x3#7 0x10#7 v 0#2 o))) = _
  simp only [R2.enc_dec, R2.enc_vBit, R2.enc_opt]
theorem Laws.RoundTrip.ptrdif (v : Bool) (o : R2) : Laws.RoundTrip.Statement (.ptrdif v o) := by
  intro _
  show decode (R2.enc 0x3#7 0x18#7 v 0#2 o) = _
  rw [decode_arm (R2.enc_root ..) (R2.enc_vBit ..), R2.enc_func]
  show Except.ok (Instr.ptrdif (vBit (R2.enc 0x3#7 0x18#7 v 0#2 o)) (R2.dec (R2.enc 0x3#7 0x18#7 v 0#2 o))) = _
  simp only [R2.enc_dec, R2.enc_vBit, R2.enc_opt]
theorem Laws.RoundTrip.blend (v : Bool) (o : R2) : Laws.RoundTrip.Statement (.blend v o) := by
  intro _
  show decode (R2.enc 0x3#7 0x30#7 v 0#2 o) = _
  rw [decode_arm (R2.enc_root ..) (R2.enc_vBit ..), R2.enc_func]
  show Except.ok (Instr.blend (vBit (R2.enc 0x3#7 0x30#7 v 0#2 o)) (R2.dec (R2.enc 0x3#7 0x30#7 v 0#2 o))) = _
  simp only [R2.enc_dec, R2.enc_vBit, R2.enc_opt]
theorem Laws.RoundTrip.fdp (v : Bool) (o : R2) : Laws.RoundTrip.Statement (.fdp v o) := by
  intro _
  show decode (R2.enc 0x3#7 0x37#7 v 0#2 o) = _
  rw [decode_arm (R2.enc_root ..) (R2.enc_vBit ..), R2.enc_func]
  show Except.ok (Instr.fdp (vBit (R2.enc 0x3#7 0x37#7 v 0#2 o)) (R2.dec (R2.enc 0x3#7 0x37#7 v 0#2 o))) = _
  simp only [R2.enc_dec, R2.enc_vBit, R2.enc_opt]
theorem Laws.RoundTrip.sllpi (v : Bool) (o : R2I) : Laws.RoundTrip.Statement (.sllpi v o) := by
  intro _
  show decode (R2I.enc 0x3#7 0x11#7 v o) = _
  rw [decode_arm (R2I.enc_root ..) (R2I.enc_vBit ..), R2I.enc_func]
  show Except.ok (Instr.sllpi (vBit (R2I.enc 0x3#7 0x11#7 v o)) (R2I.dec (R2I.enc 0x3#7 0x11#7 v o))) = _
  simp only [R2I.enc_dec, R2I.enc_vBit]
theorem Laws.RoundTrip.chkR3Form (v : Bool) (o : ChkR) : Laws.RoundTrip.Statement (.chkR3Form v o) := by
  intro _
  show decode (ChkR.enc 0x3#7 0x22#7 v o) = _
  rw [decode_arm (ChkR.enc_root ..) (ChkR.enc_vBit ..), ChkR.enc_func]
  show Except.ok (Instr.chkR3Form (vBit (ChkR.enc 0x3#7 0x22#7 v o)) (ChkR.dec (ChkR.enc 0x3#7 0x22#7 v o))) = _
  simp only [ChkR.enc_dec, ChkR.enc_vBit]
theorem Laws.RoundTrip.dep (v : Bool) (o : R2) : Laws.RoundTrip.Statement (.dep v o) := by
  intro _
  show decode (R2.enc 0x1c#7 0x3#7 v 0#2 o) = _
  rw [decode_arm (R2.enc_root ..) (R2.enc_vBit ..), R2.enc_func]
  show Except.ok (Instr.dep (vBit (R2.enc 0x1c#7 0x3#7 v 0#2 o)) (R2.dec (R2.enc 0x1c#7 0x3#7 v 0#2 o))) = _
  simp only [R2.enc_dec, R2.enc_vBit, R2.enc_opt]
theorem Laws.RoundTrip.ext (v : Bool) (o : R2) : Laws.RoundTrip.Statement (.ext v o) := by
  intro _
  show decode (R2.enc 0x1c#7 0x4#7 v 0#2 o) = _
  rw [decode_arm (R2.enc_root ..) (R2.enc_vBit ..), R2.enc_func]
  show Except.ok (Instr.ext (vBit (R2.enc 0x1c#7 0x4#7 v 0#2 o)) (R2.dec (R2.enc 0x1c#7 0x4#7 v 0#2 o))) = _
  simp only [R2.enc_dec, R2.enc_vBit, R2.enc_opt]
theorem Laws.RoundTrip.extu (v : Bool) (o : R2) : Laws.RoundTrip.Statement (.extu v o) := by
  intro _
  show decode (R2.enc 0x1c#7 0x5#7 v 0#2 o) = _
  rw [decode_arm (R2.enc_root ..) (R2.enc_vBit ..), R2.enc_func]
  show Except.ok (Instr.extu (vBit (R2.enc 0x1c#7 0x5#7 v 0#2 o)) (R2.dec (R2.enc 0x1c#7 0x5#7 v 0#2 o))) = _
  simp only [R2.enc_dec, R2.enc_vBit, R2.enc_opt]
theorem Laws.RoundTrip.ffo (v : Bool) (o : R2) : Laws.RoundTrip.Statement (.ffo v o) := by
  intro _
  show decode (R2.enc 0x1c#7 0x6#7 v 0#2 o) = _
  rw [decode_arm (R2.enc_root ..) (R2.enc_vBit ..), R2.enc_func]
  show Except.ok (Instr.ffo (vBit (R2.enc 0x1c#7 0x6#7 v 0#2 o)) (R2.dec (R2.enc 0x1c#7 0x6#7 v 0#2 o))) = _
  simp only [R2.enc_dec, R2.enc_vBit, R2.enc_opt]
theorem Laws.RoundTrip.addImmediate (v : Bool) (o : RI) : Laws.RoundTrip.Statement (.addImmediate v o) := by
  intro _
  show decode (RI.enc 0x4#7 v o) = _
  rw [decode_arm (RI.enc_root ..) (RI.enc_vBit ..)]
  show Except.ok (Instr.addImmediate (vBit (RI.enc 0x4#7 v o)) (RI.dec (RI.enc 0x4#7 v o))) = _
  simp only [RI.enc_dec, RI.enc_vBit]
theorem Laws.RoundTrip.subfImmediate (v : Bool) (o : RI) : Laws.RoundTrip.Statement (.subfImmediate v o) := by
  intro _
  show decode (RI.enc 0x5#7 v o) = _
  rw [decode_arm (RI.enc_root ..) (RI.enc_vBit ..)]
  show Except.ok (Instr.subfImmediate (vBit (RI.enc 0x5#7 v o)) (RI.dec (RI.enc 0x5#7 v o))) = _
  simp only [RI.enc_dec, RI.enc_vBit]
theorem Laws.RoundTrip.mulImmediate (v : Bool) (o : RI) : Laws.RoundTrip.Statement (.mulImmediate v o) := by
  intro _
  show decode (RI.enc 0x6#7 v o) = _
  rw [decode_arm (RI.enc_root ..) (RI.enc_vBit ..)]
  show Except.ok (Instr.mulImmediate (vBit (RI.enc 0x6#7 v o)) (RI.dec (RI.enc 0x6#7 v o))) = _
  simp only [RI.enc_dec, RI.enc_vBit]
theorem Laws.RoundTrip.andImmediate (v : Bool) (o : RI) : Laws.RoundTrip.Statement (.andImmediate v o) := by
  intro _
  show decode (RI.enc 0x8#7 v o) = _
  rw [decode_arm (RI.enc_root ..) (RI.enc_vBit ..)]
  show Except.ok (Instr.andImmediate (vBit (RI.enc 0x8#7 v o)) (RI.dec (RI.enc 0x8#7 v o))) = _
  simp only [RI.enc_dec, RI.enc_vBit]
theorem Laws.RoundTrip.orImmediate (v : Bool) (o : RI) : Laws.RoundTrip.Statement (.orImmediate v o) := by
  intro _
  show decode (RI.enc 0x9#7 v o) = _
  rw [decode_arm (RI.enc_root ..) (RI.enc_vBit ..)]
  show Except.ok (Instr.orImmediate (vBit (RI.enc 0x9#7 v o)) (RI.dec (RI.enc 0x9#7 v o))) = _
  simp only [RI.enc_dec, RI.enc_vBit]
theorem Laws.RoundTrip.xorImmediate (v : Bool) (o : RI) : Laws.RoundTrip.Statement (.xorImmediate v o) := by
  intro _
  show decode (RI.enc 0xa#7 v o) = _
  rw [decode_arm (RI.enc_root ..) (RI.enc_vBit ..)]
  show Except.ok (Instr.xorImmediate (vBit (RI.enc 0xa#7 v o)) (RI.dec (RI.enc 0xa#7 v o))) = _
  simp only [RI.enc_dec, RI.enc_vBit]
theorem Laws.RoundTrip.muluImmediate (v : Bool) (o : RI) : Laws.RoundTrip.Statement (.muluImmediate v o) := by
  intro _
  show decode (RI.enc 0xe#7 v o) = _
  rw [decode_arm (RI.enc_root ..) (RI.enc_vBit ..)]
  show Except.ok (Instr.muluImmediate (vBit (RI.enc 0xe#7 v o)) (RI.dec (RI.enc 0xe#7 v o))) = _
  simp only [RI.enc_dec, RI.enc_vBit]
theorem Laws.RoundTrip.divImmediate (v : Bool) (o : RI) : Laws.RoundTrip.Statement (.divImmediate v o) := by
  intro _
  show decode (RI.enc 0x10#7 v o) = _
  rw [decode_arm (RI.enc_root ..) (RI.enc_vBit ..)]
  show Except.ok (Instr.divImmediate (vBit (RI.enc 0x10#7 v o)) (RI.dec (RI.enc 0x10#7 v o))) = _
  simp only [RI.enc_dec, RI.enc_vBit]
theorem Laws.RoundTrip.divuImmediate (v : Bool) (o : RI) : Laws.RoundTrip.Statement (.divuImmediate v o) := by
  intro _
  show decode (RI.enc 0x11#7 v o) = _
  rw [decode_arm (RI.enc_root ..) (RI.enc_vBit ..)]
  show Except.ok (Instr.divuImmediate (vBit (RI.enc 0x11#7 v o)) (RI.dec (RI.enc 0x11#7 v o))) = _
  simp only [RI.enc_dec, RI.enc_vBit]
theorem Laws.RoundTrip.divsuImmediate (v : Bool) (o : RI) : Laws.RoundTrip.Statement (.divsuImmediate v o) := by
  intro _
  show decode (RI.enc 0x12#7 v o) = _
  rw [decode_arm (RI.enc_root ..) (RI.enc_vBit ..)]
  show Except.ok (Instr.divsuImmediate (vBit (RI.enc 0x12#7 v o)) (RI.dec (RI.enc 0x12#7 v o))) = _
  simp only [RI.enc_dec, RI.enc_vBit]
theorem Laws.RoundTrip.mulfImmediate (v : Bool) (o : RI) : Laws.RoundTrip.Statement (.mulfImmediate v o) := by
  intro _
  show decode (RI.enc 0x15#7 v o) = _
  rw [decode_arm (RI.enc_root ..) (RI.enc_vBit ..)]
  show Except.ok (Instr.mulfImmediate (vBit (RI.enc 0x15#7 v o)) (RI.dec (RI.enc 0x15#7 v o))) = _
  simp only [RI.enc_dec, RI.enc_vBit]
theorem Laws.RoundTrip.mulsuImmediate (v : Bool) (o : RI) : Laws.RoundTrip.Statement (.mulsuImmediate v o) := by
  intro _
  show decode (RI.enc 0x16#7 v o) = _
  rw [decode_arm (RI.enc_root ..) (RI.enc_vBit ..)]
  show Except.ok (Instr.mulsuImmediate (vBit (RI.enc 0x16#7 v o)) (RI.dec (RI.enc 0x16#7 v o))) = _
  simp only [RI.enc_dec, RI.enc_vBit]
theorem Laws.RoundTrip.permImmediate (v : Bool) (o : RI) : Laws.RoundTrip.Statement (.permImmediate v o) := by
  intro _
  show decode (RI.enc 0x17#7 v o) = _
  rw [decode_arm (RI.enc_root ..) (RI.enc_vBit ..)]
  show Except.ok (Instr.permImmediate (vBit (RI.enc 0x17#7 v o)) (RI.dec (RI.enc 0x17#7 v o))) = _
  simp only [RI.enc_dec, RI.enc_vBit]
theorem Laws.RoundTrip.remImmediate (v : Bool) (o : RI) : Laws.RoundTrip.Statement (.remImmediate v o) := by
  intro _
  show decode (RI.enc 0x18#7 v o) = _
  rw [decode_arm (RI.enc_root ..) (RI.enc_vBit ..)]
  show Except.ok (Instr.remImmediate (vBit (RI.enc 0x18#7 v o)) (RI.dec (RI.enc 0x18#7 v o))) = _
  simp only [RI.enc_dec, RI.enc_vBit]
theorem Laws.RoundTrip.remuImmediate (v : Bool) (o : RI) : Laws.RoundTrip.Statement (.remuImmediate v o) := by
  intro _
  show decode (RI.enc 0x19#7 v o) = _
  rw [decode_arm (RI.enc_root ..) (RI.enc_vBit ..)]
  show Except.ok (Instr.remuImmediate (vBit (RI.enc 0x19#7 v o)) (RI.dec (RI.enc 0x19#7 v o))) = _
  simp only [RI.enc_dec, RI.enc_vBit]
theorem Laws.RoundTrip.wydndxImmediate (v : Bool) (o : RI) : Laws.RoundTrip.Statement (.wydndxImmediate v o) := by
  intro _
  show decode (RI.enc 0x1b#7 v o) = _
  rw [decode_arm (RI.enc_root ..) (RI.enc_vBit ..)]
  show Except.ok (Instr.wydndxImmediate (vBit (RI.enc 0x1b#7 v o)) (RI.dec (RI.enc 0x1b#7 v o))) = _
  simp only [RI.enc_dec, RI.enc_vBit]
theorem Laws.RoundTrip.remsuImmediate (v : Bool) (o : RI) : Laws.RoundTrip.Statement (.remsuImmediate v o) := by
  intro _
  show decode (RI.enc 0x20#7 v o) = _
  rw [decode_arm (RI.enc_root ..) (RI.enc_vBit ..)]
  show Except.ok (Instr.remsuImmediate (vBit (RI.enc 0x20#7 v o)) (RI.dec (RI.enc 0x20#7 v o))) = _
  simp only [RI.enc_dec, RI.enc_vBit]
theorem Laws.RoundTrip.divrImmediate (v : Bool) (o : RI) : Laws.RoundTrip.Statement (.divrImmediate v o) := by
  intro _
  show decode (RI.enc 0x21#7 v o) = _
  rw [decode_arm (RI.enc_root ..) (RI.enc_vBit ..)]
  show Except.ok (Instr.divrImmediate (vBit (RI.enc 0x21#7 v o)) (RI.dec (RI.enc 0x21#7 v o))) = _
  simp only [RI.enc_dec, RI.enc_vBit]
theorem Laws.RoundTrip.u21ndxImmediate (v : Bool) (o : RI) : Laws.RoundTrip.Statement (.u21ndxImmediate v o) := by
  intro _
  show decode (RI.enc 0x23#7 v o) = _
  rw [decode_arm (RI.enc_root ..) (RI.enc_vBit ..)]
  show Except.ok (Instr.u21ndxImmediate (vBit (RI.enc 0x23#7 v o)) (RI.dec (RI.enc 0x23#7 v o))) = _
  simp only [RI.enc_dec, RI.enc_vBit]
theorem Laws.RoundTrip.seqImmediate (v : Bool) (o : RI) : Laws.RoundTrip.Statement (.seqImmediate v o) := by
  intro _
  show decode (RI.enc 0x26#7 v o) = _
  rw [decode_arm (RI.enc_root ..) (RI.enc_vBit ..)]
  show Except.ok (Instr.seqImmediate (vBit (RI.enc 0x26#7 v o)) (RI.dec (RI.enc 0x26#7 v o))) = _
  simp only [RI.enc_dec, RI.enc_vBit]
theorem Laws.RoundTrip.sneImmediate (v : Bool) (o : RI) : Laws.RoundTrip.Statement (.sneImmediate v o) := by
  intro _
  show decode (RI.enc 0x27#7 v o) = _
  rw [decode_arm (RI.enc_root ..) (RI.enc_vBit ..)]
  show Except.ok (Instr.sneImmediate (vBit (RI.enc 0x27#7 v o)) (RI.dec (RI.enc 0x27#7 v o))) = _
  simp only [RI.enc_dec, RI.enc_vBit]
theorem Laws.RoundTrip.sltImmediate (v : Bool) (o : RI) : Laws.RoundTrip.Statement (.sltImmediate v o) := by
  intro _
  show decode (RI.enc 0x28#7 v o) = _
  rw [decode_arm (RI.enc_root ..) (RI.enc_vBit ..)]
  show Except.ok (Instr.sltImmediate (vBit (RI.enc 0x28#7 v o)) (RI.dec (RI.enc 0x28#7 v o))) = _
  simp only [RI.enc_dec, RI.enc_vBit]
theorem Laws.RoundTrip.sgtImmediate (v : Bool) (o : RI) : Laws.RoundTrip.Statement (.sgtImmediate v o) := by
  intro _
  show decode (RI.enc 0x29#7 v o) = _
  rw [decode_arm (RI.enc_root ..) (RI.enc_vBit ..)]
  show Except.ok (Instr.sgtImmediate (vBit (RI.enc 0x29#7 v o)) (RI.dec (RI.enc 0x29#7 v o))) = _
  simp only [RI.enc_dec, RI.enc_vBit]
theorem Laws.RoundTrip.sltuImmediate (v : Bool) (o : RI) : Laws.RoundTrip.Statement (.sltuImmediate v o) := by
  intro _
  show decode (RI.enc 0x2a#7 v o) = _
  rw [decode_arm (RI.enc_root ..) (RI.enc_vBit ..)]
  show Except.ok (Instr.sltuImmediate (vBit (RI.enc 0x2a#7 v o)) (RI.dec (RI.enc 0x2a#7 v o))) = _
  simp only [RI.enc_dec, RI.enc_vBit]
theorem Laws.RoundTrip.sgtuImmediate (v : Bool) (o : RI) : Laws.RoundTrip.Statement (.sgtuImmediate v o) := by
  intro _
  show decode (RI.enc 0x2b#7 v o) = _
  rw [decode_arm (RI.enc_root ..) (RI.enc_vBit ..)]
  show Except.ok (Instr.sgtuImmediate (vBit (RI.enc 0x2b#7 v o)) (RI.dec (RI.enc 0x2b#7 v o))) = _
  simp only [RI.enc_dec, RI.enc_vBit]
theorem Laws.RoundTrip.mystImmediate (o : RI) : Laws.RoundTrip.Statement (.mystImmediate o) := by
  intro _
  show decode (RI.enc 0x1f#7 false o) = _
  rw [decode_arm (RI.enc_root ..) (RI.enc_vBit ..)]
  show Except.ok (Instr.mystImmediate (RI.dec (RI.enc 0x1f#7 false o))) = _
  simp only [RI.enc_dec]
theorem Laws.RoundTrip.sand (o : RI) : Laws.RoundTrip.Statement (.sand o) := by
  intro _
  show decode (RI.enc 0x24#7 false o) = _
  rw [decode_arm (RI.enc_root ..) (RI.enc_vBit ..)]
  show Except.ok (Instr.sand (RI.dec (RI.enc 0x24#7 false o))) = _
  simp only [RI.enc_dec]
theorem Laws.RoundTrip.sor (o : RI) : Laws.RoundTrip.Statement (.sor o) := by
  intro _
  show decode (RI.enc 0x25#7 false o) = _
  rw [decode_arm (RI.enc_root ..) (RI.enc_vBit ..)]
  show Except.ok (Instr.sor (RI.dec (RI.enc 0x25#7 false o))) = _
  simp only [RI.enc_dec]
theorem Laws.RoundTrip.setGroup (v : Bool) : Laws.RoundTrip.Statement (.setGroup v) := by
  intro _
  show decode (wordV 0xd#7 v) = _
  rw [decode_arm (wordV_root ..) (wordV_vBit ..)]
  show Except.ok (Instr.setGroup (vBit (wordV 0xd#7 v))) = _
  simp only [wordV_vBit]
theorem Laws.RoundTrip.chkImmediate (v : Bool) (o : ChkI) : Laws.RoundTrip.Statement (.chkImmediate v o) := by
  intro _
  show decode (ChkI.enc 0x22#7 v o) = _
  rw [decode_arm (ChkI.enc_root ..) (ChkI.enc_vBit ..)]
  show Except.ok (Instr.chkImmediate (vBit (ChkI.enc 0x22#7 v o)) (ChkI.dec (ChkI.enc 0x22#7 v o))) = _
  simp only [ChkI.enc_dec, ChkI.enc_vBit]
theorem Laws.RoundTrip.bytndx (v : Bool) (o : R2) : Laws.RoundTrip.Statement (.bytndx v o) := by
  intro _
  show decode (R2.enc 0x1a#7 0x0#7 v 0#2 o) = _
  rw [decode_arm (R2.enc_root ..) (R2.enc_vBit ..), R2.enc_func4]
  show Except.ok (Instr.bytndx (vBit (R2.enc 0x1a#7 0x0#7 v 0#2 o)) (R2.dec (R2.enc 0x1a#7 0x0#7 v 0#2 o))) = _
  simp only [R2.enc_dec, R2.enc_vBit, R2.enc_opt]
theorem Laws.RoundTrip.bytndxImmediate (v : Bool) (o : BytI) : Laws.RoundTrip.Statement (.bytndxImmediate v o) := by
  intro _
  show decode (BytI.enc 0x1a#7 v o) = _
  rw [decode_arm (BytI.enc_root ..) (BytI.enc_vBit ..), BytI.enc_func4]
  show Except.ok (Instr.bytndxImmediate (vBit (BytI.enc 0x1a#7 v o)) (BytI.dec (BytI.enc 0x1a#7 v o))) = _
  simp only [BytI.enc_dec, BytI.enc_vBit]
theorem Laws.RoundTrip.csrrd (o : Csr) : Laws.RoundTrip.Statement (.csrrd o) := by
  intro _
  show decode (Csr.enc 0x0#2 o) = _
  rw [decode_arm (Csr.enc_root ..) (Csr.enc_vBit ..)]
  show decodeCsr (csrOp (Csr.enc 0x0#2 o)).toNat false _ = _
  rw [Csr.enc_op]
  show Except.ok (Instr.csrrd (Csr.dec (Csr.enc 0x0#2 o))) = _
  simp only [Csr.enc_dec, Csr.enc_op]
theorem Laws.RoundTrip.csrrw (o : Csr) : Laws.RoundTrip.Statement (.csrrw o) := by
  intro _
  show decode (Csr.enc 0x1#2 o) = _
  rw [decode_arm (Csr.enc_root ..) (Csr.enc_vBit ..)]
  show decodeCsr (csrOp (Csr.enc 0x1#2 o)).toNat false _ = _
  rw [Csr.enc_op]
  show Except.ok (Instr.csrrw (Csr.dec (Csr.enc 0x1#2 o))) = _
  simp only [Csr.enc_dec, Csr.enc_op]
theorem Laws.RoundTrip.csrrs (o : Csr) : Laws.RoundTrip.Statement (.csrrs o) := by
  intro _
  show decode (Csr.enc 0x2#2 o) = _
  rw [decode_arm (Csr.enc_root ..) (Csr.enc_vBit ..)]
  show decodeCsr (csrOp (Csr.enc 0x2#2 o)).toNat false _ = _
  rw [Csr.enc_op]
  show Except.ok (Instr.csrrs (Csr.dec (Csr.enc 0x2#2 o))) = _
  simp only [Csr.enc_dec, Csr.enc_op]
theorem Laws.RoundTrip.csrrc (o : Csr) : Laws.RoundTrip.Statement (.csrrc o) := by
  intro _
  show decode (Csr.enc 0x3#2 o) = _
  rw [decode_arm (Csr.enc_root ..) (Csr.enc_vBit ..)]
  show decodeCsr (csrOp (Csr.enc 0x3#2 o)).toNat false _ = _
  rw [Csr.enc_op]
  show Except.ok (Instr.csrrc (Csr.dec (Csr.enc 0x3#2 o))) = _
  simp only [Csr.enc_dec, Csr.enc_op]
theorem Laws.RoundTrip.llal : Laws.RoundTrip.Statement .llal := by
  intro _
  show decode (sysWord 0x0#7) = _
  rw [decode_arm (sysWord_root ..) (sysWord_vBit ..), sysWord_func]
  show Except.ok Instr.llal = _
  rfl
theorem Laws.RoundTrip.llah : Laws.RoundTrip.Statement .llah := by
  intro _
  show decode (sysWord 0x1#7) = _
  rw [decode_arm (sysWord_root ..) (sysWord_vBit ..), sysWord_func]
  show Except.ok Instr.llah = _
  rfl
theorem Laws.RoundTrip.lpal : Laws.RoundTrip.Statement .lpal := by
  intro _
  show decode (sysWord 0x4#7) = _
  rw [decode_arm (sysWord_root ..) (sysWord_vBit ..), sysWord_func]
  show Except.ok Instr.lpal = _
  rfl
theorem Laws.RoundTrip.lpah : Laws.RoundTrip.Statement .lpah := by
  intro _
  show decode (sysWord 0x5#7) = _
  rw [decode_arm (sysWord_root ..) (sysWord_vBit ..), sysWord_func]
  show Except.ok Instr.lpah = _
  rfl
theorem Laws.RoundTrip.setkey : Laws.RoundTrip.Statement .setkey := by
  intro _
  show decode (sysWord 0x14#7) = _
  rw [decode_arm (sysWord_root ..) (sysWord_vBit ..), sysWord_func]
  show Except.ok Instr.setkey = _
  rfl
theorem Laws.RoundTrip.setto : Laws.RoundTrip.Statement .setto := by
  intro _
  show decode (sysWord 0x18#7) = _
  rw [decode_arm (sysWord_root ..) (sysWord_vBit ..), sysWord_func]
  show Except.ok Instr.setto = _
  rfl
theorem Laws.RoundTrip.getto : Laws.RoundTrip.Statement .getto := by
  intro _
  show decode (sysWord 0x19#7) = _
  rw [decode_arm (sysWord_root ..) (sysWord_vBit ..), sysWord_func]
  show Except.ok Instr.getto = _
  rfl
theorem Laws.RoundTrip.getzl : Laws.RoundTrip.Statement .getzl := by
  intro _
  show decode (sysWord 0x1a#7) = _
  rw [decode_arm (sysWord_root ..) (sysWord_vBit ..), sysWord_func]
  show Except.ok Instr.getzl = _
  rfl
theorem Laws.RoundTrip.mvseg : Laws.RoundTrip.Statement .mvseg := by
  intro _
  show decode (sysWord 0x1d#7) = _
  rw [decode_arm (sysWord_root ..) (sysWord_vBit ..), sysWord_func]
  show Except.ok Instr.mvseg = _
  rfl
theorem Laws.RoundTrip.csave : Laws.RoundTrip.Statement .csave := by
  intro _
  show decode (sysWord 0x20#7) = _
  rw [decode_arm (sysWord_root ..) (sysWord_vBit ..), sysWord_func]
  show Except.ok Instr.csave = _
  rfl
theorem Laws.RoundTrip.crestore : Laws.RoundTrip.Statement .crestore := by
  intro _
  show decode (sysWord 0x21#7) = _
  rw [decode_arm (sysWord_root ..) (sysWord_vBit ..), sysWord_func]
  show Except.ok Instr.crestore = _
  rfl
theorem Laws.RoundTrip.exec (a : RSpec) : Laws.RoundTrip.Statement (.exec a) := by
  intro _
  show decode (sysA 0x7#7 a) = _
  rw [decode_arm (sysA_root ..) (sysA_vBit ..), sysA_func]
  show Except.ok (Instr.exec (rA (sysA 0x7#7 a))) = _
  simp only [sysA_a]
theorem Laws.RoundTrip.pushq (b : OSpec) (a : RSpec) : Laws.RoundTrip.Statement (.pushq b a) := by
  intro _
  show decode (sysBA 0x8#7 b a) = _
  rw [decode_arm (sysBA_root ..) (sysBA_vBit ..), sysBA_func]
  show withoutVector (tVector (sysBA 0x8#7 b a)) (sysBA 0x8#7 b a) (.ok (Instr.pushq (rB (sysBA 0x8#7 b a)) (rA (sysBA 0x8#7 b a)))) = _
  rw [sysBA_codes]
  show Except.ok (Instr.pushq (rB (sysBA 0x8#7 b a)) (rA (sysBA 0x8#7 b a))) = _
  simp only [sysBA_b, sysBA_a]
theorem Laws.RoundTrip.popq (a : RSpec) (t : RSpec) : Laws.RoundTrip.Statement (.popq a t) := by
  intro _
  show decode (sysAT 0x9#7 a t) = _
  rw [decode_arm (sysAT_root ..) (sysAT_vBit ..), sysAT_func]
  show withoutVector (bVector (sysAT 0x9#7 a t)) (sysAT 0x9#7 a t) (.ok (Instr.popq (rA (sysAT 0x9#7 a t)) (rT (sysAT 0x9#7 a t)))) = _
  rw [sysAT_codes]
  show Except.ok (Instr.popq (rA (sysAT 0x9#7 a t)) (rT (sysAT 0x9#7 a t))) = _
  simp only [sysAT_a, sysAT_t]
theorem Laws.RoundTrip.peekq (a : RSpec) (t : RSpec) : Laws.RoundTrip.Statement (.peekq a t) := by
  intro _
  show decode (sysAT 0xa#7 a t) = _
  rw [decode_arm (sysAT_root ..) (sysAT_vBit ..), sysAT_func]
  show withoutVector (bVector (sysAT 0xa#7 a t)) (sysAT 0xa#7 a t) (.ok (Instr.peekq (rA (sysAT 0xa#7 a t)) (rT (sysAT 0xa#7 a t)))) = _
  rw [sysAT_codes]
  show Except.ok (Instr.peekq (rA (sysAT 0xa#7 a t)) (rT (sysAT 0xa#7 a t))) = _
  simp only [sysAT_a, sysAT_t]
theorem Laws.RoundTrip.statq (a : RSpec) (t : RSpec) : Laws.RoundTrip.Statement (.statq a t) := by
  intro _
  show decode (sysAT 0xb#7 a t) = _
  rw [decode_arm (sysAT_root ..) (sysAT_vBit ..), sysAT_func]
  show withoutVector (bVector (sysAT 0xb#7 a t)) (sysAT 0xb#7 a t) (.ok (Instr.statq (rA (sysAT 0xb#7 a t)) (rT (sysAT 0xb#7 a t)))) = _
  rw [sysAT_codes]
  show Except.ok (Instr.statq (rA (sysAT 0xb#7 a t)) (rT (sysAT 0xb#7 a t))) = _
  simp only [sysAT_a, sysAT_t]
theorem Laws.RoundTrip.pushqi (q : BitVec 6) (a : RSpec) : Laws.RoundTrip.Statement (.pushqi q a) := by
  intro _
  show decode (sysQA 0xc#7 q a) = _
  rw [decode_arm (sysQA_root ..) (sysQA_vBit ..), sysQA_func]
  show withoutVector (tVector (sysQA 0xc#7 q a)) (sysQA 0xc#7 q a) (.ok (Instr.pushqi ((sysQA 0xc#7 q a).extractLsb' 20 6) (rA (sysQA 0xc#7 q a)))) = _
  rw [sysQA_codes]
  show Except.ok (Instr.pushqi ((sysQA 0xc#7 q a).extractLsb' 20 6) (rA (sysQA 0xc#7 q a))) = _
  simp only [sysQA_q, sysQA_a]
theorem Laws.RoundTrip.popqi (q : BitVec 6) (t : RSpec) : Laws.RoundTrip.Statement (.popqi q t) := by
  intro _
  show decode (sysQT 0xd#7 q t) = _
  rw [decode_arm (sysQT_root ..) (sysQT_vBit ..), sysQT_func]
  show withoutVector (bVector (sysQT 0xd#7 q t)) (sysQT 0xd#7 q t) (.ok (Instr.popqi ((sysQT 0xd#7 q t).extractLsb' 14 6) (rT (sysQT 0xd#7 q t)))) = _
  rw [sysQT_codes]
  show Except.ok (Instr.popqi ((sysQT 0xd#7 q t).extractLsb' 14 6) (rT (sysQT 0xd#7 q t))) = _
  simp only [sysQT_q, sysQT_t]
theorem Laws.RoundTrip.peekqi (q : BitVec 6) (t : RSpec) : Laws.RoundTrip.Statement (.peekqi q t) := by
  intro _
  show decode (sysQT 0xe#7 q t) = _
  rw [decode_arm (sysQT_root ..) (sysQT_vBit ..), sysQT_func]
  show withoutVector (bVector (sysQT 0xe#7 q t)) (sysQT 0xe#7 q t) (.ok (Instr.peekqi ((sysQT 0xe#7 q t).extractLsb' 14 6) (rT (sysQT 0xe#7 q t)))) = _
  rw [sysQT_codes]
  show Except.ok (Instr.peekqi ((sysQT 0xe#7 q t).extractLsb' 14 6) (rT (sysQT 0xe#7 q t))) = _
  simp only [sysQT_q, sysQT_t]
theorem Laws.RoundTrip.statqi (q : BitVec 6) (t : RSpec) : Laws.RoundTrip.Statement (.statqi q t) := by
  intro _
  show decode (sysQT 0xf#7 q t) = _
  rw [decode_arm (sysQT_root ..) (sysQT_vBit ..), sysQT_func]
  show withoutVector (bVector (sysQT 0xf#7 q t)) (sysQT 0xf#7 q t) (.ok (Instr.statqi ((sysQT 0xf#7 q t).extractLsb' 14 6) (rT (sysQT 0xf#7 q t)))) = _
  rw [sysQT_codes]
  show Except.ok (Instr.statqi ((sysQT 0xf#7 q t).extractLsb' 14 6) (rT (sysQT 0xf#7 q t))) = _
  simp only [sysQT_q, sysQT_t]
theorem Laws.RoundTrip.rex (tm : BitVec 2) : Laws.RoundTrip.Statement (.rex tm) := by
  intro _
  show decode (rexWord tm) = _
  rw [decode_arm (rexWord_root ..) (rexWord_vBit ..), rexWord_func]
  show Except.ok (Instr.rex ((rexWord tm).extractLsb' 27 2)) = _
  simp only [rexWord_tm]
theorem Laws.RoundTrip.pfi (t : RSpec) : Laws.RoundTrip.Statement (.pfi t) := by
  intro _
  show decode (sysT 0x11#7 t) = _
  rw [decode_arm (sysT_root ..) (sysT_vBit ..), sysT_func]
  show Except.ok (Instr.pfi (rT (sysT 0x11#7 t))) = _
  simp only [sysT_t]
theorem Laws.RoundTrip.wfi : Laws.RoundTrip.Statement .wfi := by
  intro _
  show decode (sysWord 0x12#7) = _
  rw [decode_arm (sysWord_root ..) (sysWord_vBit ..), sysWord_func]
  show Except.ok Instr.wfi = _
  rfl
theorem Laws.RoundTrip.rte (b : OSpec) (offset : BitVec 12) : Laws.RoundTrip.Statement (.rte b offset) := by
  intro _
  show decode (rteWord b offset) = _
  rw [decode_arm (rteWord_root ..) (rteWord_vBit ..), rteWord_func]
  show Except.ok (Instr.rte (rB (rteWord b offset)) ((rteWord b offset).extractLsb' 8 12)) = _
  simp only [rteWord_b, rteWord_offset]
theorem Laws.RoundTrip.tlbrw (o : R2) : Laws.RoundTrip.Statement (.tlbrw o) := by
  intro _
  show decode (R2.enc 0x7#7 0x1e#7 false 0#2 o) = _
  rw [decode_arm (R2.enc_root ..) (R2.enc_vBit ..), R2.enc_func]
  show Except.ok (Instr.tlbrw (R2.dec (R2.enc 0x7#7 0x1e#7 false 0#2 o))) = _
  simp only [R2.enc_dec, R2.enc_opt]
theorem Laws.RoundTrip.sync : Laws.RoundTrip.Statement .sync := by
  intro _
  show decode (sysWord 0x1f#7) = _
  rw [decode_arm (sysWord_root ..) (sysWord_vBit ..), sysWord_func]
  show Except.ok Instr.sync = _
  rfl
theorem Laws.RoundTrip.fmov (v : Bool) (o : R1) : Laws.RoundTrip.Statement (.fmov v o) := by
  intro _
  show decode (R1.enc 0x34#7 0x0#7 v 0#3 o) = _
  rw [decode_arm (R1.enc_root ..) (R1.enc_vBit ..), R1.enc_func]
  show Except.ok (Instr.fmov (vBit (R1.enc 0x34#7 0x0#7 v 0#3 o)) (R1.dec (R1.enc 0x34#7 0x0#7 v 0#3 o))) = _
  simp only [R1.enc_dec, R1.enc_vBit, R1.enc_rm]
theorem Laws.RoundTrip.frsqrt (v : Bool) (o : R1) : Laws.RoundTrip.Statement (.frsqrt v o) := by
  intro _
  show decode (R1.enc 0x34#7 0x1#7 v 0#3 o) = _
  rw [decode_arm (R1.enc_root ..) (R1.enc_vBit ..), R1.enc_func]
  show Except.ok (Instr.frsqrt (vBit (R1.enc 0x34#7 0x1#7 v 0#3 o)) (R1.dec (R1.enc 0x34#7 0x1#7 v 0#3 o))) = _
  simp only [R1.enc_dec, R1.enc_vBit, R1.enc_rm]
theorem Laws.RoundTrip.ftoi (v : Bool) (o : R1) : Laws.RoundTrip.Statement (.ftoi v o) := by
  intro _
  show decode (R1.enc 0x34#7 0x2#7 v 0#3 o) = _
  rw [decode_arm (R1.enc_root ..) (R1.enc_vBit ..), R1.enc_func]
  show Except.ok (Instr.ftoi (vBit (R1.enc 0x34#7 0x2#7 v 0#3 o)) (R1.dec (R1.enc 0x34#7 0x2#7 v 0#3 o))) = _
  simp only [R1.enc_dec, R1.enc_vBit, R1.enc_rm]
theorem Laws.RoundTrip.itof (v : Bool) (o : R1) : Laws.RoundTrip.Statement (.itof v o) := by
  intro _
  show decode (R1.enc 0x34#7 0x3#7 v 0#3 o) = _
  rw [decode_arm (R1.enc_root ..) (R1.enc_vBit ..), R1.enc_func]
  show Except.ok (Instr.itof (vBit (R1.enc 0x34#7 0x3#7 v 0#3 o)) (R1.dec (R1.enc 0x34#7 0x3#7 v 0#3 o))) = _
  simp only [R1.enc_dec, R1.enc_vBit, R1.enc_rm]
theorem Laws.RoundTrip.fsign (v : Bool) (o : R1) : Laws.RoundTrip.Statement (.fsign v o) := by
  intro _
  show decode (R1.enc 0x34#7 0x6#7 v 0#3 o) = _
  rw [decode_arm (R1.enc_root ..) (R1.enc_vBit ..), R1.enc_func]
  show Except.ok (Instr.fsign (vBit (R1.enc 0x34#7 0x6#7 v 0#3 o)) (R1.dec (R1.enc 0x34#7 0x6#7 v 0#3 o))) = _
  simp only [R1.enc_dec, R1.enc_vBit, R1.enc_rm]
theorem Laws.RoundTrip.fman (v : Bool) (o : R1) : Laws.RoundTrip.Statement (.fman v o) := by
  intro _
  show decode (R1.enc 0x34#7 0x7#7 v 0#3 o) = _
  rw [decode_arm (R1.enc_root ..) (R1.enc_vBit ..), R1.enc_func]
  show Except.ok (Instr.fman (vBit (R1.enc 0x34#7 0x7#7 v 0#3 o)) (R1.dec (R1.enc 0x34#7 0x7#7 v 0#3 o))) = _
  simp only [R1.enc_dec, R1.enc_vBit, R1.enc_rm]
theorem Laws.RoundTrip.fs2d (v : Bool) (o : R1) : Laws.RoundTrip.Statement (.fs2d v o) := by
  intro _
  show decode (R1.enc 0x34#7 0x9#7 v 0#3 o) = _
  rw [decode_arm (R1.enc_root ..) (R1.enc_vBit ..), R1.enc_func]
  show Except.ok (Instr.fs2d (vBit (R1.enc 0x34#7 0x9#7 v 0#3 o)) (R1.dec (R1.enc 0x34#7 0x9#7 v 0#3 o))) = _
  simp only [R1.enc_dec, R1.enc_vBit, R1.enc_rm]
theorem Laws.RoundTrip.fs2q (v : Bool) (o : R1) : Laws.RoundTrip.Statement (.fs2q v o) := by
  intro _
  show decode (R1.enc 0x34#7 0xa#7 v 0#3 o) = _
  rw [decode_arm (R1.enc_root ..) (R1.enc_vBit ..), R1.enc_func]
  show Except.ok (Instr.fs2q (vBit (R1.enc 0x34#7 0xa#7 v 0#3 o)) (R1.dec (R1.enc 0x34#7 0xa#7 v 0#3 o))) = _
  simp only [R1.enc_dec, R1.enc_vBit, R1.enc_rm]
theorem Laws.RoundTrip.fd2q (v : Bool) (o : R1) : Laws.RoundTrip.Statement (.fd2q v o) := by
  intro _
  show decode (R1.enc 0x34#7 0xb#7 v 0#3 o) = _
  rw [decode_arm (R1.enc_root ..) (R1.enc_vBit ..), R1.enc_func]
  show Except.ok (Instr.fd2q (vBit (R1.enc 0x34#7 0xb#7 v 0#3 o)) (R1.dec (R1.enc 0x34#7 0xb#7 v 0#3 o))) = _
  simp only [R1.enc_dec, R1.enc_vBit, R1.enc_rm]
theorem Laws.RoundTrip.fstat (v : Bool) (o : R1) : Laws.RoundTrip.Statement (.fstat v o) := by
  intro _
  show decode (R1.enc 0x34#7 0xc#7 v 0#3 o) = _
  rw [decode_arm (R1.enc_root ..) (R1.enc_vBit ..), R1.enc_func]
  show Except.ok (Instr.fstat (vBit (R1.enc 0x34#7 0xc#7 v 0#3 o)) (R1.dec (R1.enc 0x34#7 0xc#7 v 0#3 o))) = _
  simp only [R1.enc_dec, R1.enc_vBit, R1.enc_rm]
theorem Laws.RoundTrip.isnan (v : Bool) (o : R1) : Laws.RoundTrip.Statement (.isnan v o) := by
  intro _
  show decode (R1.enc 0x34#7 0xe#7 v 0#3 o) = _
  rw [decode_arm (R1.enc_root ..) (R1.enc_vBit ..), R1.enc_func]
  show Except.ok (Instr.isnan (vBit (R1.enc 0x34#7 0xe#7 v 0#3 o)) (R1.dec (R1.enc 0x34#7 0xe#7 v 0#3 o))) = _
  simp only [R1.enc_dec, R1.enc_vBit, R1.enc_rm]
theorem Laws.RoundTrip.finite (v : Bool) (o : R1) : Laws.RoundTrip.Statement (.finite v o) := by
  intro _
  show decode (R1.enc 0x34#7 0xf#7 v 0#3 o) = _
  rw [decode_arm (R1.enc_root ..) (R1.enc_vBit ..), R1.enc_func]
  show Except.ok (Instr.finite (vBit (R1.enc 0x34#7 0xf#7 v 0#3 o)) (R1.dec (R1.enc 0x34#7 0xf#7 v 0#3 o))) = _
  simp only [R1.enc_dec, R1.enc_vBit, R1.enc_rm]
theorem Laws.RoundTrip.ftx (v : Bool) (o : R1) : Laws.RoundTrip.Statement (.ftx v o) := by
  intro _
  show decode (R1.enc 0x34#7 0x10#7 v 0#3 o) = _
  rw [decode_arm (R1.enc_root ..) (R1.enc_vBit ..), R1.enc_func]
  show Except.ok (Instr.ftx (vBit (R1.enc 0x34#7 0x10#7 v 0#3 o)) (R1.dec (R1.enc 0x34#7 0x10#7 v 0#3 o))) = _
  simp only [R1.enc_dec, R1.enc_vBit, R1.enc_rm]
theorem Laws.RoundTrip.fcx (v : Bool) (o : R1) : Laws.RoundTrip.Statement (.fcx v o) := by
  intro _
  show decode (R1.enc 0x34#7 0x11#7 v 0#3 o) = _
  rw [decode_arm (R1.enc_root ..) (R1.enc_vBit ..), R1.enc_func]
  show Except.ok (Instr.fcx (vBit (R1.enc 0x34#7 0x11#7 v 0#3 o)) (R1.dec (R1.enc 0x34#7 0x11#7 v 0#3 o))) = _
  simp only [R1.enc_dec, R1.enc_vBit, R1.enc_rm]
theorem Laws.RoundTrip.fex (v : Bool) (o : R1) : Laws.RoundTrip.Statement (.fex v o) := by
  intro _
  show decode (R1.enc 0x34#7 0x12#7 v 0#3 o) = _
  rw [decode_arm (R1.enc_root ..) (R1.enc_vBit ..), R1.enc_func]
  show Except.ok (Instr.fex (vBit (R1.enc 0x34#7 0x12#7 v 0#3 o)) (R1.dec (R1.enc 0x34#7 0x12#7 v 0#3 o))) = _
  simp only [R1.enc_dec, R1.enc_vBit, R1.enc_rm]
theorem Laws.RoundTrip.fdx (v : Bool) (o : R1) : Laws.RoundTrip.Statement (.fdx v o) := by
  intro _
  show decode (R1.enc 0x34#7 0x13#7 v 0#3 o) = _
  rw [decode_arm (R1.enc_root ..) (R1.enc_vBit ..), R1.enc_func]
  show Except.ok (Instr.fdx (vBit (R1.enc 0x34#7 0x13#7 v 0#3 o)) (R1.dec (R1.enc 0x34#7 0x13#7 v 0#3 o))) = _
  simp only [R1.enc_dec, R1.enc_vBit, R1.enc_rm]
theorem Laws.RoundTrip.frm (v : Bool) (o : R1) : Laws.RoundTrip.Statement (.frm v o) := by
  intro _
  show decode (R1.enc 0x34#7 0x14#7 v 0#3 o) = _
  rw [decode_arm (R1.enc_root ..) (R1.enc_vBit ..), R1.enc_func]
  show Except.ok (Instr.frm (vBit (R1.enc 0x34#7 0x14#7 v 0#3 o)) (R1.dec (R1.enc 0x34#7 0x14#7 v 0#3 o))) = _
  simp only [R1.enc_dec, R1.enc_vBit, R1.enc_rm]
theorem Laws.RoundTrip.trunc (v : Bool) (o : R1) : Laws.RoundTrip.Statement (.trunc v o) := by
  intro _
  show decode (R1.enc 0x34#7 0x15#7 v 0#3 o) = _
  rw [decode_arm (R1.enc_root ..) (R1.enc_vBit ..), R1.enc_func]
  show Except.ok (Instr.trunc (vBit (R1.enc 0x34#7 0x15#7 v 0#3 o)) (R1.dec (R1.enc 0x34#7 0x15#7 v 0#3 o))) = _
  simp only [R1.enc_dec, R1.enc_vBit, R1.enc_rm]
theorem Laws.RoundTrip.fsync (v : Bool) (o : R1) : Laws.RoundTrip.Statement (.fsync v o) := by
  intro _
  show decode (R1.enc 0x34#7 0x16#7 v 0#3 o) = _
  rw [decode_arm (R1.enc_root ..) (R1.enc_vBit ..), R1.enc_func]
  show Except.ok (Instr.fsync (vBit (R1.enc 0x34#7 0x16#7 v 0#3 o)) (R1.dec (R1.enc 0x34#7 0x16#7 v 0#3 o))) = _
  simp only [R1.enc_dec, R1.enc_vBit, R1.enc_rm]
theorem Laws.RoundTrip.fres (v : Bool) (o : R1) : Laws.RoundTrip.Statement (.fres v o) := by
  intro _
  show decode (R1.enc 0x34#7 0x17#7 v 0#3 o) = _
  rw [decode_arm (R1.enc_root ..) (R1.enc_vBit ..), R1.enc_func]
  show Except.ok (Instr.fres (vBit (R1.enc 0x34#7 0x17#7 v 0#3 o)) (R1.dec (R1.enc 0x34#7 0x17#7 v 0#3 o))) = _
  simp only [R1.enc_dec, R1.enc_vBit, R1.enc_rm]
theorem Laws.RoundTrip.fsigmoid (v : Bool) (o : R1) : Laws.RoundTrip.Statement (.fsigmoid v o) := by
  intro _
  show decode (R1.enc 0x34#7 0x18#7 v 0#3 o) = _
  rw [decode_arm (R1.enc_root ..) (R1.enc_vBit ..), R1.enc_func]
  show Except.ok (Instr.fsigmoid (vBit (R1.enc 0x34#7 0x18#7 v 0#3 o)) (R1.dec (R1.enc 0x34#7 0x18#7 v 0#3 o))) = _
  simp only [R1.enc_dec, R1.enc_vBit, R1.enc_rm]
theorem Laws.RoundTrip.fd2s (v : Bool) (o : R1) : Laws.RoundTrip.Statement (.fd2s v o) := by
  intro _
  show decode (R1.enc 0x34#7 0x19#7 v 0#3 o) = _
  rw [decode_arm (R1.enc_root ..) (R1.enc_vBit ..), R1.enc_func]
  show Except.ok (Instr.fd2s (vBit (R1.enc 0x34#7 0x19#7 v 0#3 o)) (R1.dec (R1.enc 0x34#7 0x19#7 v 0#3 o))) = _
  simp only [R1.enc_dec, R1.enc_vBit, R1.enc_rm]
theorem Laws.RoundTrip.fq2s (v : Bool) (o : R1) : Laws.RoundTrip.Statement (.fq2s v o) := by
  intro _
  show decode (R1.enc 0x34#7 0x1a#7 v 0#3 o) = _
  rw [decode_arm (R1.enc_root ..) (R1.enc_vBit ..), R1.enc_func]
  show Except.ok (Instr.fq2s (vBit (R1.enc 0x34#7 0x1a#7 v 0#3 o)) (R1.dec (R1.enc 0x34#7 0x1a#7 v 0#3 o))) = _
  simp only [R1.enc_dec, R1.enc_vBit, R1.enc_rm]
theorem Laws.RoundTrip.fq2d (v : Bool) (o : R1) : Laws.RoundTrip.Statement (.fq2d v o) := by
  intro _
  show decode (R1.enc 0x34#7 0x1b#7 v 0#3 o) = _
  rw [decode_arm (R1.enc_root ..) (R1.enc_vBit ..), R1.enc_func]
  show Except.ok (Instr.fq2d (vBit (R1.enc 0x34#7 0x1b#7 v 0#3 o)) (R1.dec (R1.enc 0x34#7 0x1b#7 v 0#3 o))) = _
  simp only [R1.enc_dec, R1.enc_vBit, R1.enc_rm]
theorem Laws.RoundTrip.fclass (v : Bool) (o : R1) : Laws.RoundTrip.Statement (.fclass v o) := by
  intro _
  show decode (R1.enc 0x34#7 0x1e#7 v 0#3 o) = _
  rw [decode_arm (R1.enc_root ..) (R1.enc_vBit ..), R1.enc_func]
  show Except.ok (Instr.fclass (vBit (R1.enc 0x34#7 0x1e#7 v 0#3 o)) (R1.dec (R1.enc 0x34#7 0x1e#7 v 0#3 o))) = _
  simp only [R1.enc_dec, R1.enc_vBit, R1.enc_rm]
theorem Laws.RoundTrip.unord (v : Bool) (o : R1) : Laws.RoundTrip.Statement (.unord v o) := by
  intro _
  show decode (R1.enc 0x34#7 0x1f#7 v 0#3 o) = _
  rw [decode_arm (R1.enc_root ..) (R1.enc_vBit ..), R1.enc_func]
  show Except.ok (Instr.unord (vBit (R1.enc 0x34#7 0x1f#7 v 0#3 o)) (R1.dec (R1.enc 0x34#7 0x1f#7 v 0#3 o))) = _
  simp only [R1.enc_dec, R1.enc_vBit, R1.enc_rm]
theorem Laws.RoundTrip.fsqrt (v : Bool) (rm : BitVec 3) (o : R1) : Laws.RoundTrip.Statement (.fsqrt v rm o) := by
  intro _
  show decode (R1.enc 0x34#7 0x8#7 v rm o) = _
  rw [decode_arm (R1.enc_root ..) (R1.enc_vBit ..), R1.enc_func]
  show Except.ok (Instr.fsqrt (vBit (R1.enc 0x34#7 0x8#7 v rm o)) ((R1.enc 0x34#7 0x8#7 v rm o).extractLsb' 24 3) (R1.dec (R1.enc 0x34#7 0x8#7 v rm o))) = _
  simp only [R1.enc_dec, R1.enc_vBit, R1.enc_rm]
theorem Laws.RoundTrip.fabs (v : Bool) (o : R1) : Laws.RoundTrip.Statement (.fabs v o) := by
  intro _
  show decode (R1.enc 0x34#7 0x20#7 v 0#3 o) = _
  rw [decode_arm (R1.enc_root ..) (R1.enc_vBit ..), R1.enc_func]
  show Except.ok (Instr.fabs (vBit (R1.enc 0x34#7 0x20#7 v 0#3 o)) (R1.dec (R1.enc 0x34#7 0x20#7 v 0#3 o))) = _
  simp only [R1.enc_dec, R1.enc_vBit, R1.enc_rm]
theorem Laws.RoundTrip.fnabs (v : Bool) (o : R1) : Laws.RoundTrip.Statement (.fnabs v o) := by
  intro _
  show decode (R1.enc 0x34#7 0x21#7 v 0#3 o) = _
  rw [decode_arm (R1.enc_root ..) (R1.enc_vBit ..), R1.enc_func]
  show Except.ok (Instr.fnabs (vBit (R1.enc 0x34#7 0x21#7 v 0#3 o)) (R1.dec (R1.enc 0x34#7 0x21#7 v 0#3 o))) = _
  simp only [R1.enc_dec, R1.enc_vBit, R1.enc_rm]
theorem Laws.RoundTrip.fneg (v : Bool) (o : R1) : Laws.RoundTrip.Statement (.fneg v o) := by
  intro _
  show decode (R1.enc 0x34#7 0x22#7 v 0#3 o) = _
  rw [decode_arm (R1.enc_root ..) (R1.enc_vBit ..), R1.enc_func]
  show Except.ok (Instr.fneg (vBit (R1.enc 0x34#7 0x22#7 v 0#3 o)) (R1.dec (R1.enc 0x34#7 0x22#7 v 0#3 o))) = _
  simp only [R1.enc_dec, R1.enc_vBit, R1.enc_rm]
theorem Laws.RoundTrip.scaleb (v : Bool) (o : R2) : Laws.RoundTrip.Statement (.scaleb v o) := by
  intro _
  show decode (R2.enc 0x35#7 0x0#7 v 0#2 o) = _
  rw [decode_arm (R2.enc_root ..) (R2.enc_vBit ..), R2.enc_func]
  show Except.ok (Instr.scaleb (vBit (R2.enc 0x35#7 0x0#7 v 0#2 o)) (R2.dec (R2.enc 0x35#7 0x0#7 v 0#2 o))) = _
  simp only [R2.enc_dec, R2.enc_vBit, R2.enc_opt]
theorem Laws.RoundTrip.fmin (v : Bool) (o : R2) : Laws.RoundTrip.Statement (.fmin v o) := by
  intro _
  show decode (R2.enc 0x35#7 0x2#7 v 0#2 o) = _
  rw [decode_arm (R2.enc_root ..) (R2.enc_vBit ..), R2.enc_func]
  show Except.ok (Instr.fmin (vBit (R2.enc 0x35#7 0x2#7 v 0#2 o)) (R2.dec (R2.enc 0x35#7 0x2#7 v 0#2 o))) = _
  simp only [R2.enc_dec, R2.enc_vBit, R2.enc_opt]
theorem Laws.RoundTrip.fmax (v : Bool) (o : R2) : Laws.RoundTrip.Statement (.fmax v o) := by
  intro _
  show decode (R2.enc 0x35#7 0x3#7 v 0#2 o) = _
  rw [decode_arm (R2.enc_root ..) (R2.enc_vBit ..), R2.enc_func]
  show Except.ok (Instr.fmax (vBit (R2.enc 0x35#7 0x3#7 v 0#2 o)) (R2.dec (R2.enc 0x35#7 0x3#7 v 0#2 o))) = _
  simp only [R2.enc_dec, R2.enc_vBit, R2.enc_opt]
theorem Laws.RoundTrip.fadd (v : Bool) (o : R2) : Laws.RoundTrip.Statement (.fadd v o) := by
  intro _
  show decode (R2.enc 0x35#7 0x4#7 v 0#2 o) = _
  rw [decode_arm (R2.enc_root ..) (R2.enc_vBit ..), R2.enc_func]
  show Except.ok (Instr.fadd (vBit (R2.enc 0x35#7 0x4#7 v 0#2 o)) (R2.dec (R2.enc 0x35#7 0x4#7 v 0#2 o))) = _
  simp only [R2.enc_dec, R2.enc_vBit, R2.enc_opt]
theorem Laws.RoundTrip.fsub (v : Bool) (o : R2) : Laws.RoundTrip.Statement (.fsub v o) := by
  intro _
  show decode (R2.enc 0x35#7 0x5#7 v 0#2 o) = _
  rw [decode_arm (R2.enc_root ..) (R2.enc_vBit ..), R2.enc_func]
  show Except.ok (Instr.fsub (vBit (R2.enc 0x35#7 0x5#7 v 0#2 o)) (R2.dec (R2.enc 0x35#7 0x5#7 v 0#2 o))) = _
  simp only [R2.enc_dec, R2.enc_vBit, R2.enc_opt]
theorem Laws.RoundTrip.fmul (v : Bool) (o : R2) : Laws.RoundTrip.Statement (.fmul v o) := by
  intro _
  show decode (R2.enc 0x35#7 0x8#7 v 0#2 o) = _
  rw [decode_arm (R2.enc_root ..) (R2.enc_vBit ..), R2.enc_func]
  show Except.ok (Instr.fmul (vBit (R2.enc 0x35#7 0x8#7 v 0#2 o)) (R2.dec (R2.enc 0x35#7 0x8#7 v 0#2 o))) = _
  simp only [R2.enc_dec, R2.enc_vBit, R2.enc_opt]
theorem Laws.RoundTrip.fdiv (v : Bool) (o : R2) : Laws.RoundTrip.Statement (.fdiv v o) := by
  intro _
  show decode (R2.enc 0x35#7 0x9#7 v 0#2 o) = _
  rw [decode_arm (R2.enc_root ..) (R2.enc_vBit ..), R2.enc_func]
  show Except.ok (Instr.fdiv (vBit (R2.enc 0x35#7 0x9#7 v 0#2 o)) (R2.dec (R2.enc 0x35#7 0x9#7 v 0#2 o))) = _
  simp only [R2.enc_dec, R2.enc_vBit, R2.enc_opt]
theorem Laws.RoundTrip.frem (v : Bool) (o : R2) : Laws.RoundTrip.Statement (.frem v o) := by
  intro _
  show decode (R2.enc 0x35#7 0xa#7 v 0#2 o) = _
  rw [decode_arm (R2.enc_root ..) (R2.enc_vBit ..), R2.enc_func]
  show Except.ok (Instr.frem (vBit (R2.enc 0x35#7 0xa#7 v 0#2 o)) (R2.dec (R2.enc 0x35#7 0xa#7 v 0#2 o))) = _
  simp only [R2.enc_dec, R2.enc_vBit, R2.enc_opt]
theorem Laws.RoundTrip.fnxt (v : Bool) (o : R2) : Laws.RoundTrip.Statement (.fnxt v o) := by
  intro _
  show decode (R2.enc 0x35#7 0xb#7 v 0#2 o) = _
  rw [decode_arm (R2.enc_root ..) (R2.enc_vBit ..), R2.enc_func]
  show Except.ok (Instr.fnxt (vBit (R2.enc 0x35#7 0xb#7 v 0#2 o)) (R2.dec (R2.enc 0x35#7 0xb#7 v 0#2 o))) = _
  simp only [R2.enc_dec, R2.enc_vBit, R2.enc_opt]
theorem Laws.RoundTrip.fcmp (v : Bool) (o : R2) : Laws.RoundTrip.Statement (.fcmp v o) := by
  intro _
  show decode (R2.enc 0x35#7 0x10#7 v 0#2 o) = _
  rw [decode_arm (R2.enc_root ..) (R2.enc_vBit ..), R2.enc_func]
  show Except.ok (Instr.fcmp (vBit (R2.enc 0x35#7 0x10#7 v 0#2 o)) (R2.dec (R2.enc 0x35#7 0x10#7 v 0#2 o))) = _
  simp only [R2.enc_dec, R2.enc_vBit, R2.enc_opt]
theorem Laws.RoundTrip.fseq (v : Bool) (o : R2) : Laws.RoundTrip.Statement (.fseq v o) := by
  intro _
  show decode (R2.enc 0x35#7 0x11#7 v 0#2 o) = _
  rw [decode_arm (R2.enc_root ..) (R2.enc_vBit ..), R2.enc_func]
  show Except.ok (Instr.fseq (vBit (R2.enc 0x35#7 0x11#7 v 0#2 o)) (R2.dec (R2.enc 0x35#7 0x11#7 v 0#2 o))) = _
  simp only [R2.enc_dec, R2.enc_vBit, R2.enc_opt]
theorem Laws.RoundTrip.fslt (v : Bool) (o : R2) : Laws.RoundTrip.Statement (.fslt v o) := by
  intro _
  show decode (R2.enc 0x35#7 0x12#7 v 0#2 o) = _
  rw [decode_arm (R2.enc_root ..) (R2.enc_vBit ..), R2.enc_func]
  show Except.ok (Instr.fslt (vBit (R2.enc 0x35#7 0x12#7 v 0#2 o)) (R2.dec (R2.enc 0x35#7 0x12#7 v 0#2 o))) = _
  simp only [R2.enc_dec, R2.enc_vBit, R2.enc_opt]
theorem Laws.RoundTrip.fsle (v : Bool) (o : R2) : Laws.RoundTrip.Statement (.fsle v o) := by
  intro _
  show decode (R2.enc 0x35#7 0x13#7 v 0#2 o) = _
  rw [decode_arm (R2.enc_root ..) (R2.enc_vBit ..), R2.enc_func]
  show Except.ok (Instr.fsle (vBit (R2.enc 0x35#7 0x13#7 v 0#2 o)) (R2.dec (R2.enc 0x35#7 0x13#7 v 0#2 o))) = _
  simp only [R2.enc_dec, R2.enc_vBit, R2.enc_opt]
theorem Laws.RoundTrip.fsne (v : Bool) (o : R2) : Laws.RoundTrip.Statement (.fsne v o) := by
  intro _
  show decode (R2.enc 0x35#7 0x14#7 v 0#2 o) = _
  rw [decode_arm (R2.enc_root ..) (R2.enc_vBit ..), R2.enc_func]
  show Except.ok (Instr.fsne (vBit (R2.enc 0x35#7 0x14#7 v 0#2 o)) (R2.dec (R2.enc 0x35#7 0x14#7 v 0#2 o))) = _
  simp only [R2.enc_dec, R2.enc_vBit, R2.enc_opt]
theorem Laws.RoundTrip.fcmpb (v : Bool) (o : R2) : Laws.RoundTrip.Statement (.fcmpb v o) := by
  intro _
  show decode (R2.enc 0x35#7 0x15#7 v 0#2 o) = _
  rw [decode_arm (R2.enc_root ..) (R2.enc_vBit ..), R2.enc_func]
  show Except.ok (Instr.fcmpb (vBit (R2.enc 0x35#7 0x15#7 v 0#2 o)) (R2.dec (R2.enc 0x35#7 0x15#7 v 0#2 o))) = _
  simp only [R2.enc_dec, R2.enc_vBit, R2.enc_opt]
theorem Laws.RoundTrip.fsetm (v : Bool) (o : R2) : Laws.RoundTrip.Statement (.fsetm v o) := by
  intro _
  show decode (R2.enc 0x35#7 0x16#7 v 0#2 o) = _
  rw [decode_arm (R2.enc_root ..) (R2.enc_vBit ..), R2.enc_func]
  show Except.ok (Instr.fsetm (vBit (R2.enc 0x35#7 0x16#7 v 0#2 o)) (R2.dec (R2.enc 0x35#7 0x16#7 v 0#2 o))) = _
  simp only [R2.enc_dec, R2.enc_vBit, R2.enc_opt]
theorem Laws.RoundTrip.cpysgn (v : Bool) (o : R2) : Laws.RoundTrip.Statement (.cpysgn v o) := by
  intro _
  show decode (R2.enc 0x35#7 0x18#7 v 0#2 o) = _
  rw [decode_arm (R2.enc_root ..) (R2.enc_vBit ..), R2.enc_func]
  show Except.ok (Instr.cpysgn (vBit (R2.enc 0x35#7 0x18#7 v 0#2 o)) (R2.dec (R2.enc 0x35#7 0x18#7 v 0#2 o))) = _
  simp only [R2.enc_dec, R2.enc_vBit, R2.enc_opt]
theorem Laws.RoundTrip.sgninv (v : Bool) (o : R2) : Laws.RoundTrip.Statement (.sgninv v o) := by
  intro _
  show decode (R2.enc 0x35#7 0x19#7 v 0#2 o) = _
  rw [decode_arm (R2.enc_root ..) (R2.enc_vBit ..), R2.enc_func]
  show Except.ok (Instr.sgninv (vBit (R2.enc 0x35#7 0x19#7 v 0#2 o)) (R2.dec (R2.enc 0x35#7 0x19#7 v 0#2 o))) = _
  simp only [R2.enc_dec, R2.enc_vBit, R2.enc_opt]
theorem Laws.RoundTrip.sgnand (v : Bool) (o : R2) : Laws.RoundTrip.Statement (.sgnand v o) := by
  intro _
  show decode (R2.enc 0x35#7 0x1a#7 v 0#2 o) = _
  rw [decode_arm (R2.enc_root ..) (R2.enc_vBit ..), R2.enc_func]
  show Except.ok (Instr.sgnand (vBit (R2.enc 0x35#7 0x1a#7 v 0#2 o)) (R2.dec (R2.enc 0x35#7 0x1a#7 v 0#2 o))) = _
  simp only [R2.enc_dec, R2.enc_vBit, R2.enc_opt]
theorem Laws.RoundTrip.sgnor (v : Bool) (o : R2) : Laws.RoundTrip.Statement (.sgnor v o) := by
  intro _
  show decode (R2.enc 0x35#7 0x1b#7 v 0#2 o) = _
  rw [decode_arm (R2.enc_root ..) (R2.enc_vBit ..), R2.enc_func]
  show Except.ok (Instr.sgnor (vBit (R2.enc 0x35#7 0x1b#7 v 0#2 o)) (R2.dec (R2.enc 0x35#7 0x1b#7 v 0#2 o))) = _
  simp only [R2.enc_dec, R2.enc_vBit, R2.enc_opt]
theorem Laws.RoundTrip.sgnxor (v : Bool) (o : R2) : Laws.RoundTrip.Statement (.sgnxor v o) := by
  intro _
  show decode (R2.enc 0x35#7 0x1c#7 v 0#2 o) = _
  rw [decode_arm (R2.enc_root ..) (R2.enc_vBit ..), R2.enc_func]
  show Except.ok (Instr.sgnxor (vBit (R2.enc 0x35#7 0x1c#7 v 0#2 o)) (R2.dec (R2.enc 0x35#7 0x1c#7 v 0#2 o))) = _
  simp only [R2.enc_dec, R2.enc_vBit, R2.enc_opt]
theorem Laws.RoundTrip.sgnxnor (v : Bool) (o : R2) : Laws.RoundTrip.Statement (.sgnxnor v o) := by
  intro _
  show decode (R2.enc 0x35#7 0x1d#7 v 0#2 o) = _
  rw [decode_arm (R2.enc_root ..) (R2.enc_vBit ..), R2.enc_func]
  show Except.ok (Instr.sgnxnor (vBit (R2.enc 0x35#7 0x1d#7 v 0#2 o)) (R2.dec (R2.enc 0x35#7 0x1d#7 v 0#2 o))) = _
  simp only [R2.enc_dec, R2.enc_vBit, R2.enc_opt]
theorem Laws.RoundTrip.fclassDyadic (v : Bool) (o : R2) : Laws.RoundTrip.Statement (.fclassDyadic v o) := by
  intro _
  show decode (R2.enc 0x35#7 0x1e#7 v 0#2 o) = _
  rw [decode_arm (R2.enc_root ..) (R2.enc_vBit ..), R2.enc_func]
  show Except.ok (Instr.fclassDyadic (vBit (R2.enc 0x35#7 0x1e#7 v 0#2 o)) (R2.dec (R2.enc 0x35#7 0x1e#7 v 0#2 o))) = _
  simp only [R2.enc_dec, R2.enc_vBit, R2.enc_opt]
theorem Laws.RoundTrip.fma (v : Bool) (o : R2) : Laws.RoundTrip.Statement (.fma v o) := by
  intro _
  show decode (R2.enc 0x36#7 0x0#7 v 0#2 o) = _
  rw [decode_arm (R2.enc_root ..) (R2.enc_vBit ..), R2.enc_func]
  show Except.ok (Instr.fma (vBit (R2.enc 0x36#7 0x0#7 v 0#2 o)) (R2.dec (R2.enc 0x36#7 0x0#7 v 0#2 o))) = _
  simp only [R2.enc_dec, R2.enc_vBit, R2.enc_opt]
theorem Laws.RoundTrip.fms (v : Bool) (o : R2) : Laws.RoundTrip.Statement (.fms v o) := by
  intro _
  show decode (R2.enc 0x36#7 0x1#7 v 0#2 o) = _
  rw [decode_arm (R2.enc_root ..) (R2.enc_vBit ..), R2.enc_func]
  show Except.ok (Instr.fms (vBit (R2.enc 0x36#7 0x1#7 v 0#2 o)) (R2.dec (R2.enc 0x36#7 0x1#7 v 0#2 o))) = _
  simp only [R2.enc_dec, R2.enc_vBit, R2.enc_opt]
theorem Laws.RoundTrip.fnma (v : Bool) (o : R2) : Laws.RoundTrip.Statement (.fnma v o) := by
  intro _
  show decode (R2.enc 0x36#7 0x2#7 v 0#2 o) = _
  rw [decode_arm (R2.enc_root ..) (R2.enc_vBit ..), R2.enc_func]
  show Except.ok (Instr.fnma (vBit (R2.enc 0x36#7 0x2#7 v 0#2 o)) (R2.dec (R2.enc 0x36#7 0x2#7 v 0#2 o))) = _
  simp only [R2.enc_dec, R2.enc_vBit, R2.enc_opt]
theorem Laws.RoundTrip.fnms (v : Bool) (o : R2) : Laws.RoundTrip.Statement (.fnms v o) := by
  intro _
  show decode (R2.enc 0x36#7 0x3#7 v 0#2 o) = _
  rw [decode_arm (R2.enc_root ..) (R2.enc_vBit ..), R2.enc_func]
  show Except.ok (Instr.fnms (vBit (R2.enc 0x36#7 0x3#7 v 0#2 o)) (R2.dec (R2.enc 0x36#7 0x3#7 v 0#2 o))) = _
  simp only [R2.enc_dec, R2.enc_vBit, R2.enc_opt]
theorem Laws.RoundTrip.f4Group (v : Bool) : Laws.RoundTrip.Statement (.f4Group v) := by
  intro _
  show decode (wordV 0x37#7 v) = _
  rw [decode_arm (wordV_root ..) (wordV_vBit ..)]
  show Except.ok (Instr.f4Group (vBit (wordV 0x37#7 v))) = _
  simp only [wordV_vBit]
theorem Laws.RoundTrip.dfabs (v : Bool) (o : R1) : Laws.RoundTrip.Statement (.dfabs v o) := by
  intro _
  show decode (R1.enc 0x30#7 0x20#7 v 0#3 o) = _
  rw [decode_arm (R1.enc_root ..) (R1.enc_vBit ..), R1.enc_func]
  show Except.ok (Instr.dfabs (vBit (R1.enc 0x30#7 0x20#7 v 0#3 o)) (R1.dec (R1.enc 0x30#7 0x20#7 v 0#3 o))) = _
  simp only [R1.enc_dec, R1.enc_vBit, R1.enc_rm]
theorem Laws.RoundTrip.dfnabs (v : Bool) (o : R1) : Laws.RoundTrip.Statement (.dfnabs v o) := by
  intro _
  show decode (R1.enc 0x30#7 0x21#7 v 0#3 o) = _
  rw [decode_arm (R1.enc_root ..) (R1.enc_vBit ..), R1.enc_func]
  show Except.ok (Instr.dfnabs (vBit (R1.enc 0x30#7 0x21#7 v 0#3 o)) (R1.dec (R1.enc 0x30#7 0x21#7 v 0#3 o))) = _
  simp only [R1.enc_dec, R1.enc_vBit, R1.enc_rm]
theorem Laws.RoundTrip.dfneg (v : Bool) (o : R1) : Laws.RoundTrip.Statement (.dfneg v o) := by
  intro _
  show decode (R1.enc 0x30#7 0x22#7 v 0#3 o) = _
  rw [decode_arm (R1.enc_root ..) (R1.enc_vBit ..), R1.enc_func]
  show Except.ok (Instr.dfneg (vBit (R1.enc 0x30#7 0x22#7 v 0#3 o)) (R1.dec (R1.enc 0x30#7 0x22#7 v 0#3 o))) = _
  simp only [R1.enc_dec, R1.enc_vBit, R1.enc_rm]
theorem Laws.RoundTrip.dfsqrt (v : Bool) (rm : BitVec 3) (o : R1) : Laws.RoundTrip.Statement (.dfsqrt v rm o) := by
  intro _
  show decode (R1.enc 0x30#7 0x8#7 v rm o) = _
  rw [decode_arm (R1.enc_root ..) (R1.enc_vBit ..), R1.enc_func]
  show Except.ok (Instr.dfsqrt (vBit (R1.enc 0x30#7 0x8#7 v rm o)) ((R1.enc 0x30#7 0x8#7 v rm o).extractLsb' 24 3) (R1.dec (R1.enc 0x30#7 0x8#7 v rm o))) = _
  simp only [R1.enc_dec, R1.enc_vBit, R1.enc_rm]
theorem Laws.RoundTrip.pabs (v : Bool) (o : R1) : Laws.RoundTrip.Statement (.pabs v o) := by
  intro _
  show decode (R1.enc 0x38#7 0x20#7 v 0#3 o) = _
  rw [decode_arm (R1.enc_root ..) (R1.enc_vBit ..), R1.enc_func]
  show Except.ok (Instr.pabs (vBit (R1.enc 0x38#7 0x20#7 v 0#3 o)) (R1.dec (R1.enc 0x38#7 0x20#7 v 0#3 o))) = _
  simp only [R1.enc_dec, R1.enc_vBit, R1.enc_rm]
theorem Laws.RoundTrip.pnabs (v : Bool) (o : R1) : Laws.RoundTrip.Statement (.pnabs v o) := by
  intro _
  show decode (R1.enc 0x38#7 0x21#7 v 0#3 o) = _
  rw [decode_arm (R1.enc_root ..) (R1.enc_vBit ..), R1.enc_func]
  show Except.ok (Instr.pnabs (vBit (R1.enc 0x38#7 0x21#7 v 0#3 o)) (R1.dec (R1.enc 0x38#7 0x21#7 v 0#3 o))) = _
  simp only [R1.enc_dec, R1.enc_vBit, R1.enc_rm]
theorem Laws.RoundTrip.pneg (v : Bool) (o : R1) : Laws.RoundTrip.Statement (.pneg v o) := by
  intro _
  show decode (R1.enc 0x38#7 0x22#7 v 0#3 o) = _
  rw [decode_arm (R1.enc_root ..) (R1.enc_vBit ..), R1.enc_func]
  show Except.ok (Instr.pneg (vBit (R1.enc 0x38#7 0x22#7 v 0#3 o)) (R1.dec (R1.enc 0x38#7 0x22#7 v 0#3 o))) = _
  simp only [R1.enc_dec, R1.enc_vBit, R1.enc_rm]
theorem Laws.RoundTrip.psqrt (v : Bool) (rm : BitVec 3) (o : R1) : Laws.RoundTrip.Statement (.psqrt v rm o) := by
  intro _
  show decode (R1.enc 0x38#7 0x8#7 v rm o) = _
  rw [decode_arm (R1.enc_root ..) (R1.enc_vBit ..), R1.enc_func]
  show Except.ok (Instr.psqrt (vBit (R1.enc 0x38#7 0x8#7 v rm o)) ((R1.enc 0x38#7 0x8#7 v rm o).extractLsb' 24 3) (R1.dec (R1.enc 0x38#7 0x8#7 v rm o))) = _
  simp only [R1.enc_dec, R1.enc_vBit, R1.enc_rm]
theorem Laws.RoundTrip.dfmin (v : Bool) (o : R2) : Laws.RoundTrip.Statement (.dfmin v o) := by
  intro _
  show decode (R2.enc 0x31#7 0x2#7 v 0#2 o) = _
  rw [decode_arm (R2.enc_root ..) (R2.enc_vBit ..), R2.enc_func]
  show Except.ok (Instr.dfmin (vBit (R2.enc 0x31#7 0x2#7 v 0#2 o)) (R2.dec (R2.enc 0x31#7 0x2#7 v 0#2 o))) = _
  simp only [R2.enc_dec, R2.enc_vBit, R2.enc_opt]
theorem Laws.RoundTrip.dfmax (v : Bool) (o : R2) : Laws.RoundTrip.Statement (.dfmax v o) := by
  intro _
  show decode (R2.enc 0x31#7 0x3#7 v 0#2 o) = _
  rw [decode_arm (R2.enc_root ..) (R2.enc_vBit ..), R2.enc_func]
  show Except.ok (Instr.dfmax (vBit (R2.enc 0x31#7 0x3#7 v 0#2 o)) (R2.dec (R2.enc 0x31#7 0x3#7 v 0#2 o))) = _
  simp only [R2.enc_dec, R2.enc_vBit, R2.enc_opt]
theorem Laws.RoundTrip.dfadd (v : Bool) (o : R2) : Laws.RoundTrip.Statement (.dfadd v o) := by
  intro _
  show decode (R2.enc 0x31#7 0x4#7 v 0#2 o) = _
  rw [decode_arm (R2.enc_root ..) (R2.enc_vBit ..), R2.enc_func]
  show Except.ok (Instr.dfadd (vBit (R2.enc 0x31#7 0x4#7 v 0#2 o)) (R2.dec (R2.enc 0x31#7 0x4#7 v 0#2 o))) = _
  simp only [R2.enc_dec, R2.enc_vBit, R2.enc_opt]
theorem Laws.RoundTrip.dfsub (v : Bool) (o : R2) : Laws.RoundTrip.Statement (.dfsub v o) := by
  intro _
  show decode (R2.enc 0x31#7 0x5#7 v 0#2 o) = _
  rw [decode_arm (R2.enc_root ..) (R2.enc_vBit ..), R2.enc_func]
  show Except.ok (Instr.dfsub (vBit (R2.enc 0x31#7 0x5#7 v 0#2 o)) (R2.dec (R2.enc 0x31#7 0x5#7 v 0#2 o))) = _
  simp only [R2.enc_dec, R2.enc_vBit, R2.enc_opt]
theorem Laws.RoundTrip.dfmul (v : Bool) (o : R2) : Laws.RoundTrip.Statement (.dfmul v o) := by
  intro _
  show decode (R2.enc 0x31#7 0x8#7 v 0#2 o) = _
  rw [decode_arm (R2.enc_root ..) (R2.enc_vBit ..), R2.enc_func]
  show Except.ok (Instr.dfmul (vBit (R2.enc 0x31#7 0x8#7 v 0#2 o)) (R2.dec (R2.enc 0x31#7 0x8#7 v 0#2 o))) = _
  simp only [R2.enc_dec, R2.enc_vBit, R2.enc_opt]
theorem Laws.RoundTrip.dfdiv (v : Bool) (o : R2) : Laws.RoundTrip.Statement (.dfdiv v o) := by
  intro _
  show decode (R2.enc 0x31#7 0x9#7 v 0#2 o) = _
  rw [decode_arm (R2.enc_root ..) (R2.enc_vBit ..), R2.enc_func]
  show Except.ok (Instr.dfdiv (vBit (R2.enc 0x31#7 0x9#7 v 0#2 o)) (R2.dec (R2.enc 0x31#7 0x9#7 v 0#2 o))) = _
  simp only [R2.enc_dec, R2.enc_vBit, R2.enc_opt]
theorem Laws.RoundTrip.dfrem (v : Bool) (o : R2) : Laws.RoundTrip.Statement (.dfrem v o) := by
  intro _
  show decode (R2.enc 0x31#7 0xa#7 v 0#2 o) = _
  rw [decode_arm (R2.enc_root ..) (R2.enc_vBit ..), R2.enc_func]
  show Except.ok (Instr.dfrem (vBit (R2.enc 0x31#7 0xa#7 v 0#2 o)) (R2.dec (R2.enc 0x31#7 0xa#7 v 0#2 o))) = _
  simp only [R2.enc_dec, R2.enc_vBit, R2.enc_opt]
theorem Laws.RoundTrip.dfnxt (v : Bool) (o : R2) : Laws.RoundTrip.Statement (.dfnxt v o) := by
  intro _
  show decode (R2.enc 0x31#7 0xb#7 v 0#2 o) = _
  rw [decode_arm (R2.enc_root ..) (R2.enc_vBit ..), R2.enc_func]
  show Except.ok (Instr.dfnxt (vBit (R2.enc 0x31#7 0xb#7 v 0#2 o)) (R2.dec (R2.enc 0x31#7 0xb#7 v 0#2 o))) = _
  simp only [R2.enc_dec, R2.enc_vBit, R2.enc_opt]
theorem Laws.RoundTrip.dfcmp (v : Bool) (o : R2) : Laws.RoundTrip.Statement (.dfcmp v o) := by
  intro _
  show decode (R2.enc 0x31#7 0x10#7 v 0#2 o) = _
  rw [decode_arm (R2.enc_root ..) (R2.enc_vBit ..), R2.enc_func]
  show Except.ok (Instr.dfcmp (vBit (R2.enc 0x31#7 0x10#7 v 0#2 o)) (R2.dec (R2.enc 0x31#7 0x10#7 v 0#2 o))) = _
  simp only [R2.enc_dec, R2.enc_vBit, R2.enc_opt]
theorem Laws.RoundTrip.dfseq (v : Bool) (o : R2) : Laws.RoundTrip.Statement (.dfseq v o) := by
  intro _
  show decode (R2.enc 0x31#7 0x11#7 v 0#2 o) = _
  rw [decode_arm (R2.enc_root ..) (R2.enc_vBit ..), R2.enc_func]
  show Except.ok (Instr.dfseq (vBit (R2.enc 0x31#7 0x11#7 v 0#2 o)) (R2.dec (R2.enc 0x31#7 0x11#7 v 0#2 o))) = _
  simp only [R2.enc_dec, R2.enc_vBit, R2.enc_opt]
theorem Laws.RoundTrip.dfslt (v : Bool) (o : R2) : Laws.RoundTrip.Statement (.dfslt v o) := by
  intro _
  show decode (R2.enc 0x31#7 0x12#7 v 0#2 o) = _
  rw [decode_arm (R2.enc_root ..) (R2.enc_vBit ..), R2.enc_func]
  show Except.ok (Instr.dfslt (vBit (R2.enc 0x31#7 0x12#7 v 0#2 o)) (R2.dec (R2.enc 0x31#7 0x12#7 v 0#2 o))) = _
  simp only [R2.enc_dec, R2.enc_vBit, R2.enc_opt]
theorem Laws.RoundTrip.dfsle (v : Bool) (o : R2) : Laws.RoundTrip.Statement (.dfsle v o) := by
  intro _
  show decode (R2.enc 0x31#7 0x13#7 v 0#2 o) = _
  rw [decode_arm (R2.enc_root ..) (R2.enc_vBit ..), R2.enc_func]
  show Except.ok (Instr.dfsle (vBit (R2.enc 0x31#7 0x13#7 v 0#2 o)) (R2.dec (R2.enc 0x31#7 0x13#7 v 0#2 o))) = _
  simp only [R2.enc_dec, R2.enc_vBit, R2.enc_opt]
theorem Laws.RoundTrip.dfsne (v : Bool) (o : R2) : Laws.RoundTrip.Statement (.dfsne v o) := by
  intro _
  show decode (R2.enc 0x31#7 0x14#7 v 0#2 o) = _
  rw [decode_arm (R2.enc_root ..) (R2.enc_vBit ..), R2.enc_func]
  show Except.ok (Instr.dfsne (vBit (R2.enc 0x31#7 0x14#7 v 0#2 o)) (R2.dec (R2.enc 0x31#7 0x14#7 v 0#2 o))) = _
  simp only [R2.enc_dec, R2.enc_vBit, R2.enc_opt]
theorem Laws.RoundTrip.dfcmpb (v : Bool) (o : R2) : Laws.RoundTrip.Statement (.dfcmpb v o) := by
  intro _
  show decode (R2.enc 0x31#7 0x15#7 v 0#2 o) = _
  rw [decode_arm (R2.enc_root ..) (R2.enc_vBit ..), R2.enc_func]
  show Except.ok (Instr.dfcmpb (vBit (R2.enc 0x31#7 0x15#7 v 0#2 o)) (R2.dec (R2.enc 0x31#7 0x15#7 v 0#2 o))) = _
  simp only [R2.enc_dec, R2.enc_vBit, R2.enc_opt]
theorem Laws.RoundTrip.dfsetm (v : Bool) (o : R2) : Laws.RoundTrip.Statement (.dfsetm v o) := by
  intro _
  show decode (R2.enc 0x31#7 0x16#7 v 0#2 o) = _
  rw [decode_arm (R2.enc_root ..) (R2.enc_vBit ..), R2.enc_func]
  show Except.ok (Instr.dfsetm (vBit (R2.enc 0x31#7 0x16#7 v 0#2 o)) (R2.dec (R2.enc 0x31#7 0x16#7 v 0#2 o))) = _
  simp only [R2.enc_dec, R2.enc_vBit, R2.enc_opt]
theorem Laws.RoundTrip.padd (v : Bool) (o : R2) : Laws.RoundTrip.Statement (.padd v o) := by
  intro _
  show decode (R2.enc 0x39#7 0x4#7 v 0#2 o) = _
  rw [decode_arm (R2.enc_root ..) (R2.enc_vBit ..), R2.enc_func]
  show Except.ok (Instr.padd (vBit (R2.enc 0x39#7 0x4#7 v 0#2 o)) (R2.dec (R2.enc 0x39#7 0x4#7 v 0#2 o))) = _
  simp only [R2.enc_dec, R2.enc_vBit, R2.enc_opt]
theorem Laws.RoundTrip.psub (v : Bool) (o : R2) : Laws.RoundTrip.Statement (.psub v o) := by
  intro _
  show decode (R2.enc 0x39#7 0x5#7 v 0#2 o) = _
  rw [decode_arm (R2.enc_root ..) (R2.enc_vBit ..), R2.enc_func]
  show Except.ok (Instr.psub (vBit (R2.enc 0x39#7 0x5#7 v 0#2 o)) (R2.dec (R2.enc 0x39#7 0x5#7 v 0#2 o))) = _
  simp only [R2.enc_dec, R2.enc_vBit, R2.enc_opt]
theorem Laws.RoundTrip.pmul (v : Bool) (o : R2) : Laws.RoundTrip.Statement (.pmul v o) := by
  intro _
  show decode (R2.enc 0x39#7 0x8#7 v 0#2 o) = _
  rw [decode_arm (R2.enc_root ..) (R2.enc_vBit ..), R2.enc_func]
  show Except.ok (Instr.pmul (vBit (R2.enc 0x39#7 0x8#7 v 0#2 o)) (R2.dec (R2.enc 0x39#7 0x8#7 v 0#2 o))) = _
  simp only [R2.enc_dec, R2.enc_vBit, R2.enc_opt]
theorem Laws.RoundTrip.pdiv (v : Bool) (o : R2) : Laws.RoundTrip.Statement (.pdiv v o) := by
  intro _
  show decode (R2.enc 0x39#7 0x9#7 v 0#2 o) = _
  rw [decode_arm (R2.enc_root ..) (R2.enc_vBit ..), R2.enc_func]
  show Except.ok (Instr.pdiv (vBit (R2.enc 0x39#7 0x9#7 v 0#2 o)) (R2.dec (R2.enc 0x39#7 0x9#7 v 0#2 o))) = _
  simp only [R2.enc_dec, R2.enc_vBit, R2.enc_opt]
theorem Laws.RoundTrip.psle (v : Bool) (o : R2) : Laws.RoundTrip.Statement (.psle v o) := by
  intro _
  show decode (R2.enc 0x39#7 0x13#7 v 0#2 o) = _
  rw [decode_arm (R2.enc_root ..) (R2.enc_vBit ..), R2.enc_func]
  show Except.ok (Instr.psle (vBit (R2.enc 0x39#7 0x13#7 v 0#2 o)) (R2.dec (R2.enc 0x39#7 0x13#7 v 0#2 o))) = _
  simp only [R2.enc_dec, R2.enc_vBit, R2.enc_opt]
theorem Laws.RoundTrip.df3Group (v : Bool) : Laws.RoundTrip.Statement (.df3Group v) := by
  intro _
  show decode (wordV 0x32#7 v) = _
  rw [decode_arm (wordV_root ..) (wordV_vBit ..)]
  show Except.ok (Instr.df3Group (vBit (wordV 0x32#7 v))) = _
  simp only [wordV_vBit]
theorem Laws.RoundTrip.df4Group (v : Bool) : Laws.RoundTrip.Statement (.df4Group v) := by
  intro _
  show decode (wordV 0x33#7 v) = _
  rw [decode_arm (wordV_root ..) (wordV_vBit ..)]
  show Except.ok (Instr.df4Group (vBit (wordV 0x33#7 v))) = _
  simp only [wordV_vBit]
theorem Laws.RoundTrip.pst3Group (v : Bool) : Laws.RoundTrip.Statement (.pst3Group v) := by
  intro _
  show decode (wordV 0x3a#7 v) = _
  rw [decode_arm (wordV_root ..) (wordV_vBit ..)]
  show Except.ok (Instr.pst3Group (vBit (wordV 0x3a#7 v))) = _
  simp only [wordV_vBit]
theorem Laws.RoundTrip.pst4Group (v : Bool) : Laws.RoundTrip.Statement (.pst4Group v) := by
  intro _
  show decode (wordV 0x3b#7 v) = _
  rw [decode_arm (wordV_root ..) (wordV_vBit ..)]
  show Except.ok (Instr.pst4Group (vBit (wordV 0x3b#7 v))) = _
  simp only [wordV_vBit]
theorem Laws.RoundTrip.link (o : RI) : Laws.RoundTrip.Statement (.link o) := by
  intro _
  show decode (RI.enc 0x3c#7 false o) = _
  rw [decode_arm (RI.enc_root ..) (RI.enc_vBit ..)]
  show Except.ok (Instr.link (RI.dec (RI.enc 0x3c#7 false o))) = _
  simp only [RI.enc_dec]
theorem Laws.RoundTrip.unlink (o : Two) : Laws.RoundTrip.Statement (.unlink o) := by
  intro _
  show decode (Two.enc 0x3d#7 false o) = _
  rw [decode_arm (Two.enc_root ..) (Two.enc_vBit ..)]
  show Except.ok (Instr.unlink (Two.dec (Two.enc 0x3d#7 false o))) = _
  simp only [Two.enc_dec]
theorem Laws.RoundTrip.nop (v : Bool) : Laws.RoundTrip.Statement (.nop v) := by
  intro _
  show decode (wordV 0x3f#7 v) = _
  rw [decode_arm (wordV_root ..) (wordV_vBit ..)]
  show Except.ok (Instr.nop (vBit (wordV 0x3f#7 v))) = _
  simp only [wordV_vBit]
theorem Laws.RoundTrip.mand (o : MaskRRR) : Laws.RoundTrip.Statement (.mand o) := by
  intro _
  show decode (MaskRRR.enc 0x0#7 o) = _
  rw [decode_arm (MaskRRR.enc_root ..) (MaskRRR.enc_vBit ..), MaskRRR.enc_func]
  show Except.ok (Instr.mand (MaskRRR.dec (MaskRRR.enc 0x0#7 o))) = _
  simp only [MaskRRR.enc_dec]
theorem Laws.RoundTrip.morMask (o : MaskRRR) : Laws.RoundTrip.Statement (.morMask o) := by
  intro _
  show decode (MaskRRR.enc 0x1#7 o) = _
  rw [decode_arm (MaskRRR.enc_root ..) (MaskRRR.enc_vBit ..), MaskRRR.enc_func]
  show Except.ok (Instr.morMask (MaskRRR.dec (MaskRRR.enc 0x1#7 o))) = _
  simp only [MaskRRR.enc_dec]
theorem Laws.RoundTrip.mxorMask (o : MaskRRR) : Laws.RoundTrip.Statement (.mxorMask o) := by
  intro _
  show decode (MaskRRR.enc 0x2#7 o) = _
  rw [decode_arm (MaskRRR.enc_root ..) (MaskRRR.enc_vBit ..), MaskRRR.enc_func]
  show Except.ok (Instr.mxorMask (MaskRRR.dec (MaskRRR.enc 0x2#7 o))) = _
  simp only [MaskRRR.enc_dec]
theorem Laws.RoundTrip.madd (o : MaskRRR) : Laws.RoundTrip.Statement (.madd o) := by
  intro _
  show decode (MaskRRR.enc 0x4#7 o) = _
  rw [decode_arm (MaskRRR.enc_root ..) (MaskRRR.enc_vBit ..), MaskRRR.enc_func]
  show Except.ok (Instr.madd (MaskRRR.dec (MaskRRR.enc 0x4#7 o))) = _
  simp only [MaskRRR.enc_dec]
theorem Laws.RoundTrip.msub (o : MaskRRR) : Laws.RoundTrip.Statement (.msub o) := by
  intro _
  show decode (MaskRRR.enc 0x5#7 o) = _
  rw [decode_arm (MaskRRR.enc_root ..) (MaskRRR.enc_vBit ..), MaskRRR.enc_func]
  show Except.ok (Instr.msub (MaskRRR.dec (MaskRRR.enc 0x5#7 o))) = _
  simp only [MaskRRR.enc_dec]
theorem Laws.RoundTrip.mnand (o : MaskRRR) : Laws.RoundTrip.Statement (.mnand o) := by
  intro _
  show decode (MaskRRR.enc 0x8#7 o) = _
  rw [decode_arm (MaskRRR.enc_root ..) (MaskRRR.enc_vBit ..), MaskRRR.enc_func]
  show Except.ok (Instr.mnand (MaskRRR.dec (MaskRRR.enc 0x8#7 o))) = _
  simp only [MaskRRR.enc_dec]
theorem Laws.RoundTrip.mnor (o : MaskRRR) : Laws.RoundTrip.Statement (.mnor o) := by
  intro _
  show decode (MaskRRR.enc 0x9#7 o) = _
  rw [decode_arm (MaskRRR.enc_root ..) (MaskRRR.enc_vBit ..), MaskRRR.enc_func]
  show Except.ok (Instr.mnor (MaskRRR.dec (MaskRRR.enc 0x9#7 o))) = _
  simp only [MaskRRR.enc_dec]
theorem Laws.RoundTrip.mxnor (o : MaskRRR) : Laws.RoundTrip.Statement (.mxnor o) := by
  intro _
  show decode (MaskRRR.enc 0xa#7 o) = _
  rw [decode_arm (MaskRRR.enc_root ..) (MaskRRR.enc_vBit ..), MaskRRR.enc_func]
  show Except.ok (Instr.mxnor (MaskRRR.dec (MaskRRR.enc 0xa#7 o))) = _
  simp only [MaskRRR.enc_dec]
theorem Laws.RoundTrip.msll (o : MaskShift) : Laws.RoundTrip.Statement (.msll o) := by
  intro _
  show decode (MaskShift.enc 0x6#7 o) = _
  rw [decode_arm (MaskShift.enc_root ..) (MaskShift.enc_vBit ..), MaskShift.enc_func]
  show Except.ok (Instr.msll (MaskShift.dec (MaskShift.enc 0x6#7 o))) = _
  simp only [MaskShift.enc_dec]
theorem Laws.RoundTrip.msrl (o : MaskShift) : Laws.RoundTrip.Statement (.msrl o) := by
  intro _
  show decode (MaskShift.enc 0x7#7 o) = _
  rw [decode_arm (MaskShift.enc_root ..) (MaskShift.enc_vBit ..), MaskShift.enc_func]
  show Except.ok (Instr.msrl (MaskShift.dec (MaskShift.enc 0x7#7 o))) = _
  simp only [MaskShift.enc_dec]
theorem Laws.RoundTrip.mfill (o : ToMask) : Laws.RoundTrip.Statement (.mfill o) := by
  intro _
  show decode (ToMask.enc 0xc#7 o) = _
  rw [decode_arm (ToMask.enc_root ..) (ToMask.enc_vBit ..), ToMask.enc_func]
  show Except.ok (Instr.mfill (ToMask.dec (ToMask.enc 0xc#7 o))) = _
  simp only [ToMask.enc_dec]
theorem Laws.RoundTrip.mpop (o : FromMask) : Laws.RoundTrip.Statement (.mpop o) := by
  intro _
  show decode (FromMask.enc 0xd#7 o) = _
  rw [decode_arm (FromMask.enc_root ..) (FromMask.enc_vBit ..), FromMask.enc_func]
  show Except.ok (Instr.mpop (FromMask.dec (FromMask.enc 0xd#7 o))) = _
  simp only [FromMask.enc_dec]
theorem Laws.RoundTrip.mfirst (o : FromMask) : Laws.RoundTrip.Statement (.mfirst o) := by
  intro _
  show decode (FromMask.enc 0xe#7 o) = _
  rw [decode_arm (FromMask.enc_root ..) (FromMask.enc_vBit ..), FromMask.enc_func]
  show Except.ok (Instr.mfirst (FromMask.dec (FromMask.enc 0xe#7 o))) = _
  simp only [FromMask.enc_dec]
theorem Laws.RoundTrip.mlast (o : FromMask) : Laws.RoundTrip.Statement (.mlast o) := by
  intro _
  show decode (FromMask.enc 0xf#7 o) = _
  rw [decode_arm (FromMask.enc_root ..) (FromMask.enc_vBit ..), FromMask.enc_func]
  show Except.ok (Instr.mlast (FromMask.dec (FromMask.enc 0xf#7 o))) = _
  simp only [FromMask.enc_dec]
theorem Laws.RoundTrip.mtm (o : ToMask) : Laws.RoundTrip.Statement (.mtm o) := by
  intro _
  show decode (ToMask.enc 0x10#7 o) = _
  rw [decode_arm (ToMask.enc_root ..) (ToMask.enc_vBit ..), ToMask.enc_func]
  show Except.ok (Instr.mtm (ToMask.dec (ToMask.enc 0x10#7 o))) = _
  simp only [ToMask.enc_dec]
theorem Laws.RoundTrip.mfm (o : FromMask) : Laws.RoundTrip.Statement (.mfm o) := by
  intro _
  show decode (FromMask.enc 0x11#7 o) = _
  rw [decode_arm (FromMask.enc_root ..) (FromMask.enc_vBit ..), FromMask.enc_func]
  show Except.ok (Instr.mfm (FromMask.dec (FromMask.enc 0x11#7 o))) = _
  simp only [FromMask.enc_dec]
theorem Laws.RoundTrip.mtvl (a : RSpec) : Laws.RoundTrip.Statement (.mtvl a) := by
  intro _
  show decode (mtvlWord a) = _
  rw [decode_arm (mtvlWord_root ..) (mtvlWord_vBit ..), mtvlWord_func]
  show Except.ok (Instr.mtvl (rA (mtvlWord a))) = _
  simp only [mtvlWord_a]
theorem Laws.RoundTrip.mfvl (tt : BitVec 2) (rt : BitVec 5) : Laws.RoundTrip.Statement (.mfvl tt rt) := by
  intro _
  show decode (mfvlWord tt rt) = _
  rw [decode_arm (mfvlWord_root ..) (mfvlWord_vBit ..), mfvlWord_func]
  show Except.ok (Instr.mfvl ((mfvlWord tt rt).extractLsb' 13 2) ((mfvlWord tt rt).extractLsb' 8 5)) = _
  simp only [mfvlWord_tt, mfvlWord_rt]
theorem Laws.RoundTrip.jal (addr : BitVec 26) (rt : BitVec 2) : Laws.RoundTrip.Statement (.jal addr rt) := by
  intro _
  show decode (jalWord 0x40#7 addr rt) = _
  rw [decode_arm (jalWord_root ..) (jalWord_vBit ..)]
  show Except.ok (Instr.jal ((jalWord 0x40#7 addr rt).extractLsb' 10 26) ((jalWord 0x40#7 addr rt).extractLsb' 8 2)) = _
  simp only [jalWord_addr, jalWord_rt]
theorem Laws.RoundTrip.bal (addr : BitVec 26) (rt : BitVec 2) : Laws.RoundTrip.Statement (.bal addr rt) := by
  intro _
  show decode (jalWord 0x41#7 addr rt) = _
  rw [decode_arm (jalWord_root ..) (jalWord_vBit ..)]
  show Except.ok (Instr.bal ((jalWord 0x41#7 addr rt).extractLsb' 10 26) ((jalWord 0x41#7 addr rt).extractLsb' 8 2)) = _
  simp only [jalWord_addr, jalWord_rt]
theorem Laws.RoundTrip.jalr (o : RI) : Laws.RoundTrip.Statement (.jalr o) := by
  intro _
  show decode (RI.enc 0x42#7 false o) = _
  rw [decode_arm (RI.enc_root ..) (RI.enc_vBit ..)]
  show Except.ok (Instr.jalr (RI.dec (RI.enc 0x42#7 false o))) = _
  simp only [RI.enc_dec]
theorem Laws.RoundTrip.fbeq (o : Branch) : Laws.RoundTrip.Statement (.fbeq o) := by
  intro _
  show decode (Branch.enc 0x46#7 o) = _
  rw [decode_arm (Branch.enc_root ..) (Branch.enc_vBit ..)]
  show Except.ok (Instr.fbeq (Branch.dec (Branch.enc 0x46#7 o))) = _
  simp only [Branch.enc_dec]
theorem Laws.RoundTrip.fbne (o : Branch) : Laws.RoundTrip.Statement (.fbne o) := by
  intro _
  show decode (Branch.enc 0x47#7 o) = _
  rw [decode_arm (Branch.enc_root ..) (Branch.enc_vBit ..)]
  show Except.ok (Instr.fbne (Branch.dec (Branch.enc 0x47#7 o))) = _
  simp only [Branch.enc_dec]
theorem Laws.RoundTrip.blt (o : Branch) : Laws.RoundTrip.Statement (.blt o) := by
  intro _
  show decode (Branch.enc 0x48#7 o) = _
  rw [decode_arm (Branch.enc_root ..) (Branch.enc_vBit ..)]
  show Except.ok (Instr.blt (Branch.dec (Branch.enc 0x48#7 o))) = _
  simp only [Branch.enc_dec]
theorem Laws.RoundTrip.bge (o : Branch) : Laws.RoundTrip.Statement (.bge o) := by
  intro _
  show decode (Branch.enc 0x49#7 o) = _
  rw [decode_arm (Branch.enc_root ..) (Branch.enc_vBit ..)]
  show Except.ok (Instr.bge (Branch.dec (Branch.enc 0x49#7 o))) = _
  simp only [Branch.enc_dec]
theorem Laws.RoundTrip.bltu (o : Branch) : Laws.RoundTrip.Statement (.bltu o) := by
  intro _
  show decode (Branch.enc 0x4a#7 o) = _
  rw [decode_arm (Branch.enc_root ..) (Branch.enc_vBit ..)]
  show Except.ok (Instr.bltu (Branch.dec (Branch.enc 0x4a#7 o))) = _
  simp only [Branch.enc_dec]
theorem Laws.RoundTrip.bgeu (o : Branch) : Laws.RoundTrip.Statement (.bgeu o) := by
  intro _
  show decode (Branch.enc 0x4b#7 o) = _
  rw [decode_arm (Branch.enc_root ..) (Branch.enc_vBit ..)]
  show Except.ok (Instr.bgeu (Branch.dec (Branch.enc 0x4b#7 o))) = _
  simp only [Branch.enc_dec]
theorem Laws.RoundTrip.bbs (o : Branch) : Laws.RoundTrip.Statement (.bbs o) := by
  intro _
  show decode (Branch.enc 0x4d#7 o) = _
  rw [decode_arm (Branch.enc_root ..) (Branch.enc_vBit ..)]
  show Except.ok (Instr.bbs (Branch.dec (Branch.enc 0x4d#7 o))) = _
  simp only [Branch.enc_dec]
theorem Laws.RoundTrip.beq (o : Branch) : Laws.RoundTrip.Statement (.beq o) := by
  intro _
  show decode (Branch.enc 0x4e#7 o) = _
  rw [decode_arm (Branch.enc_root ..) (Branch.enc_vBit ..)]
  show Except.ok (Instr.beq (Branch.dec (Branch.enc 0x4e#7 o))) = _
  simp only [Branch.enc_dec]
theorem Laws.RoundTrip.bne (o : Branch) : Laws.RoundTrip.Statement (.bne o) := by
  intro _
  show decode (Branch.enc 0x4f#7 o) = _
  rw [decode_arm (Branch.enc_root ..) (Branch.enc_vBit ..)]
  show Except.ok (Instr.bne (Branch.dec (Branch.enc 0x4f#7 o))) = _
  simp only [Branch.enc_dec]
theorem Laws.RoundTrip.blank43h : Laws.RoundTrip.Statement .blank43h := by
  intro _
  show decode (wordV 0x43#7 false) = _
  rw [decode_arm (wordV_root ..) (wordV_vBit ..)]
  show Except.ok Instr.blank43h = _
  rfl
theorem Laws.RoundTrip.blank44h : Laws.RoundTrip.Statement .blank44h := by
  intro _
  show decode (wordV 0x44#7 false) = _
  rw [decode_arm (wordV_root ..) (wordV_vBit ..)]
  show Except.ok Instr.blank44h = _
  rfl
theorem Laws.RoundTrip.blank45h : Laws.RoundTrip.Statement .blank45h := by
  intro _
  show decode (wordV 0x45#7 false) = _
  rw [decode_arm (wordV_root ..) (wordV_vBit ..)]
  show Except.ok Instr.blank45h = _
  rfl
theorem Laws.RoundTrip.blank4ch : Laws.RoundTrip.Statement .blank4ch := by
  intro _
  show decode (wordV 0x4c#7 false) = _
  rw [decode_arm (wordV_root ..) (wordV_vBit ..)]
  show Except.ok Instr.blank4ch = _
  rfl
theorem Laws.RoundTrip.exi0 (payload : BitVec 28) : Laws.RoundTrip.Statement (.exi0 payload) := by
  intro _
  show decode (exiWord 0x50#7 payload) = _
  rw [decode_arm (exiWord_root ..) (exiWord_vBit ..)]
  show Except.ok (Instr.exi0 ((exiWord 0x50#7 payload).extractLsb' 8 28)) = _
  simp only [exiWord_payload]
theorem Laws.RoundTrip.exi1 (payload : BitVec 28) : Laws.RoundTrip.Statement (.exi1 payload) := by
  intro _
  show decode (exiWord 0x51#7 payload) = _
  rw [decode_arm (exiWord_root ..) (exiWord_vBit ..)]
  show Except.ok (Instr.exi1 ((exiWord 0x51#7 payload).extractLsb' 8 28)) = _
  simp only [exiWord_payload]
theorem Laws.RoundTrip.exi2 (payload : BitVec 28) : Laws.RoundTrip.Statement (.exi2 payload) := by
  intro _
  show decode (exiWord 0x52#7 payload) = _
  rw [decode_arm (exiWord_root ..) (exiWord_vBit ..)]
  show Except.ok (Instr.exi2 ((exiWord 0x52#7 payload).extractLsb' 8 28)) = _
  simp only [exiWord_payload]
theorem Laws.RoundTrip.exi3 (payload : BitVec 28) : Laws.RoundTrip.Statement (.exi3 payload) := by
  intro _
  show decode (exiWord 0x53#7 payload) = _
  rw [decode_arm (exiWord_root ..) (exiWord_vBit ..)]
  show Except.ok (Instr.exi3 ((exiWord 0x53#7 payload).extractLsb' 8 28)) = _
  simp only [exiWord_payload]
theorem Laws.RoundTrip.exi4 (payload : BitVec 28) : Laws.RoundTrip.Statement (.exi4 payload) := by
  intro _
  show decode (exiWord 0x54#7 payload) = _
  rw [decode_arm (exiWord_root ..) (exiWord_vBit ..)]
  show Except.ok (Instr.exi4 ((exiWord 0x54#7 payload).extractLsb' 8 28)) = _
  simp only [exiWord_payload]
theorem Laws.RoundTrip.imod (v : Bool) (o : ImodOps) : Laws.RoundTrip.Statement (.imod v o) := by
  intro _
  show decode (ImodOps.enc v o) = _
  rw [decode_arm (ImodOps.enc_root ..) (ImodOps.enc_vBit ..)]
  show Except.ok (Instr.imod (vBit (ImodOps.enc v o)) (ImodOps.dec (ImodOps.enc v o))) = _
  simp only [ImodOps.enc_dec, ImodOps.enc_vBit]
theorem Laws.RoundTrip.brmod (o : BrmodOps) : Laws.RoundTrip.Statement (.brmod o) := by
  intro _
  show decode (BrmodOps.enc o) = _
  rw [decode_arm (BrmodOps.enc_root ..) (BrmodOps.enc_vBit ..)]
  show Except.ok (Instr.brmod (BrmodOps.dec (BrmodOps.enc o))) = _
  simp only [BrmodOps.enc_dec]
theorem Laws.RoundTrip.stride (v : Bool) (o : StrideOps) : Laws.RoundTrip.Statement (.stride v o) := by
  intro _
  show decode (StrideOps.enc v o) = _
  rw [decode_arm (StrideOps.enc_root ..) (StrideOps.enc_vBit ..)]
  show Except.ok (Instr.stride (vBit (StrideOps.enc v o)) (StrideOps.dec (StrideOps.enc v o))) = _
  simp only [StrideOps.enc_dec, StrideOps.enc_vBit]
theorem Laws.RoundTrip.reglist (list : BitVec 30) : Laws.RoundTrip.Statement (.reglist list) := by
  intro _
  show decode (reglistWord list) = _
  rw [decode_arm (reglistWord_root _) (reglistWord_vBit _)]
  have h : ∀ q : BitVec 2, ∀ w : BitVec 36, decodeRoot (0x17#5 ++ q).toNat (funcOf w).toNat (func4Of w).toNat false w =
      .ok (.reglist (w.extractLsb' 8 28 ++ w.extractLsb' 0 2)) := by
    intro q w
    have : q = 0#2 ∨ q = 1#2 ∨ q = 2#2 ∨ q = 3#2 := by revert q; decide
    rcases this with rfl | rfl | rfl | rfl <;> rfl
  rw [h, reglistWord_list]
theorem Laws.RoundTrip.ldb (o : LdD) : Laws.RoundTrip.Statement (.ldb o) := by
  intro _
  show decode (LdD.enc 0x60#7 false 0x0#4 o) = _
  rw [decode_arm (LdD.enc_root ..) (LdD.enc_vBit ..), LdD.enc_func4]
  show Except.ok (Instr.ldb (LdD.dec (LdD.enc 0x60#7 false 0x0#4 o))) = _
  simp only [LdD.enc_dec, LdD.enc_f4]
theorem Laws.RoundTrip.ldbIndexed (o : LdX) : Laws.RoundTrip.Statement (.ldbIndexed o) := by
  intro _
  show decode (LdX.enc 0x61#7 0x0#4 o) = _
  rw [decode_arm (LdX.enc_root ..) (LdX.enc_vBit ..), LdX.enc_func4]
  show Except.ok (Instr.ldbIndexed (LdX.dec (LdX.enc 0x61#7 0x0#4 o))) = _
  simp only [LdX.enc_dec]
theorem Laws.RoundTrip.ldw (o : LdD) : Laws.RoundTrip.Statement (.ldw o) := by
  intro _
  show decode (LdD.enc 0x60#7 false 0x1#4 o) = _
  rw [decode_arm (LdD.enc_root ..) (LdD.enc_vBit ..), LdD.enc_func4]
  show Except.ok (Instr.ldw (LdD.dec (LdD.enc 0x60#7 false 0x1#4 o))) = _
  simp only [LdD.enc_dec, LdD.enc_f4]
theorem Laws.RoundTrip.ldwIndexed (o : LdX) : Laws.RoundTrip.Statement (.ldwIndexed o) := by
  intro _
  show decode (LdX.enc 0x61#7 0x1#4 o) = _
  rw [decode_arm (LdX.enc_root ..) (LdX.enc_vBit ..), LdX.enc_func4]
  show Except.ok (Instr.ldwIndexed (LdX.dec (LdX.enc 0x61#7 0x1#4 o))) = _
  simp only [LdX.enc_dec]
theorem Laws.RoundTrip.ldt (o : LdD) : Laws.RoundTrip.Statement (.ldt o) := by
  intro _
  show decode (LdD.enc 0x60#7 false 0x2#4 o) = _
  rw [decode_arm (LdD.enc_root ..) (LdD.enc_vBit ..), LdD.enc_func4]
  show Except.ok (Instr.ldt (LdD.dec (LdD.enc 0x60#7 false 0x2#4 o))) = _
  simp only [LdD.enc_dec, LdD.enc_f4]
theorem Laws.RoundTrip.ldtIndexed (o : LdX) : Laws.RoundTrip.Statement (.ldtIndexed o) := by
  intro _
  show decode (LdX.enc 0x61#7 0x2#4 o) = _
  rw [decode_arm (LdX.enc_root ..) (LdX.enc_vBit ..), LdX.enc_func4]
  show Except.ok (Instr.ldtIndexed (LdX.dec (LdX.enc 0x61#7 0x2#4 o))) = _
  simp only [LdX.enc_dec]
theorem Laws.RoundTrip.ldo (o : LdD) : Laws.RoundTrip.Statement (.ldo o) := by
  intro _
  show decode (LdD.enc 0x60#7 false 0x3#4 o) = _
  rw [decode_arm (LdD.enc_root ..) (LdD.enc_vBit ..), LdD.enc_func4]
  show Except.ok (Instr.ldo (LdD.dec (LdD.enc 0x60#7 false 0x3#4 o))) = _
  simp only [LdD.enc_dec, LdD.enc_f4]
theorem Laws.RoundTrip.ldoIndexed (o : LdX) : Laws.RoundTrip.Statement (.ldoIndexed o) := by
  intro _
  show decode (LdX.enc 0x61#7 0x3#4 o) = _
  rw [decode_arm (LdX.enc_root ..) (LdX.enc_vBit ..), LdX.enc_func4]
  show Except.ok (Instr.ldoIndexed (LdX.dec (LdX.enc 0x61#7 0x3#4 o))) = _
  simp only [LdX.enc_dec]
theorem Laws.RoundTrip.ldbz (o : LdD) : Laws.RoundTrip.Statement (.ldbz o) := by
  intro _
  show decode (LdD.enc 0x64#7 false 0x0#4 o) = _
  rw [decode_arm (LdD.enc_root ..) (LdD.enc_vBit ..), LdD.enc_func4]
  show Except.ok (Instr.ldbz (LdD.dec (LdD.enc 0x64#7 false 0x0#4 o))) = _
  simp only [LdD.enc_dec, LdD.enc_f4]
theorem Laws.RoundTrip.ldbzIndexed (o : LdX) : Laws.RoundTrip.Statement (.ldbzIndexed o) := by
  intro _
  show decode (LdX.enc 0x65#7 0x0#4 o) = _
  rw [decode_arm (LdX.enc_root ..) (LdX.enc_vBit ..), LdX.enc_func4]
  show Except.ok (Instr.ldbzIndexed (LdX.dec (LdX.enc 0x65#7 0x0#4 o))) = _
  simp only [LdX.enc_dec]
theorem Laws.RoundTrip.ldwz (o : LdD) : Laws.RoundTrip.Statement (.ldwz o) := by
  intro _
  show decode (LdD.enc 0x64#7 false 0x1#4 o) = _
  rw [decode_arm (LdD.enc_root ..) (LdD.enc_vBit ..), LdD.enc_func4]
  show Except.ok (Instr.ldwz (LdD.dec (LdD.enc 0x64#7 false 0x1#4 o))) = _
  simp only [LdD.enc_dec, LdD.enc_f4]
theorem Laws.RoundTrip.ldwzIndexed (o : LdX) : Laws.RoundTrip.Statement (.ldwzIndexed o) := by
  intro _
  show decode (LdX.enc 0x65#7 0x1#4 o) = _
  rw [decode_arm (LdX.enc_root ..) (LdX.enc_vBit ..), LdX.enc_func4]
  show Except.ok (Instr.ldwzIndexed (LdX.dec (LdX.enc 0x65#7 0x1#4 o))) = _
  simp only [LdX.enc_dec]
theorem Laws.RoundTrip.ldtz (o : LdD) : Laws.RoundTrip.Statement (.ldtz o) := by
  intro _
  show decode (LdD.enc 0x64#7 false 0x2#4 o) = _
  rw [decode_arm (LdD.enc_root ..) (LdD.enc_vBit ..), LdD.enc_func4]
  show Except.ok (Instr.ldtz (LdD.dec (LdD.enc 0x64#7 false 0x2#4 o))) = _
  simp only [LdD.enc_dec, LdD.enc_f4]
theorem Laws.RoundTrip.ldtzIndexed (o : LdX) : Laws.RoundTrip.Statement (.ldtzIndexed o) := by
  intro _
  show decode (LdX.enc 0x65#7 0x2#4 o) = _
  rw [decode_arm (LdX.enc_root ..) (LdX.enc_vBit ..), LdX.enc_func4]
  show Except.ok (Instr.ldtzIndexed (LdX.dec (LdX.enc 0x65#7 0x2#4 o))) = _
  simp only [LdX.enc_dec]
theorem Laws.RoundTrip.ldoAt64h (o : LdD) : Laws.RoundTrip.Statement (.ldoAt64h o) := by
  intro _
  show decode (LdD.enc 0x64#7 false 0x3#4 o) = _
  rw [decode_arm (LdD.enc_root ..) (LdD.enc_vBit ..), LdD.enc_func4]
  show Except.ok (Instr.ldoAt64h (LdD.dec (LdD.enc 0x64#7 false 0x3#4 o))) = _
  simp only [LdD.enc_dec, LdD.enc_f4]
theorem Laws.RoundTrip.ldoIndexedAt65h (o : LdX) : Laws.RoundTrip.Statement (.ldoIndexedAt65h o) := by
  intro _
  show decode (LdX.enc 0x65#7 0x3#4 o) = _
  rw [decode_arm (LdX.enc_root ..) (LdX.enc_vBit ..), LdX.enc_func4]
  show Except.ok (Instr.ldoIndexedAt65h (LdX.dec (LdX.enc 0x65#7 0x3#4 o))) = _
  simp only [LdX.enc_dec]
theorem Laws.RoundTrip.ldptrAt60h (o : LdD) : Laws.RoundTrip.Statement (.ldptrAt60h o) := by
  intro _
  show decode (LdD.enc 0x60#7 false 0x7#4 o) = _
  rw [decode_arm (LdD.enc_root ..) (LdD.enc_vBit ..), LdD.enc_func4]
  show Except.ok (Instr.ldptrAt60h (LdD.dec (LdD.enc 0x60#7 false 0x7#4 o))) = _
  simp only [LdD.enc_dec, LdD.enc_f4]
theorem Laws.RoundTrip.ldptrAt61h (o : LdX) : Laws.RoundTrip.Statement (.ldptrAt61h o) := by
  intro _
  show decode (LdX.enc 0x61#7 0x7#4 o) = _
  rw [decode_arm (LdX.enc_root ..) (LdX.enc_vBit ..), LdX.enc_func4]
  show Except.ok (Instr.ldptrAt61h (LdX.dec (LdX.enc 0x61#7 0x7#4 o))) = _
  simp only [LdX.enc_dec]
theorem Laws.RoundTrip.ldptrAt64h (o : LdD) : Laws.RoundTrip.Statement (.ldptrAt64h o) := by
  intro _
  show decode (LdD.enc 0x64#7 false 0x7#4 o) = _
  rw [decode_arm (LdD.enc_root ..) (LdD.enc_vBit ..), LdD.enc_func4]
  show Except.ok (Instr.ldptrAt64h (LdD.dec (LdD.enc 0x64#7 false 0x7#4 o))) = _
  simp only [LdD.enc_dec, LdD.enc_f4]
theorem Laws.RoundTrip.ldptrAt65h (o : LdX) : Laws.RoundTrip.Statement (.ldptrAt65h o) := by
  intro _
  show decode (LdX.enc 0x65#7 0x7#4 o) = _
  rw [decode_arm (LdX.enc_root ..) (LdX.enc_vBit ..), LdX.enc_func4]
  show Except.ok (Instr.ldptrAt65h (LdX.dec (LdX.enc 0x65#7 0x7#4 o))) = _
  simp only [LdX.enc_dec]
theorem Laws.RoundTrip.ldmAt60h (o : LdD) : Laws.RoundTrip.Statement (.ldmAt60h o) := by
  intro _
  show decode (LdD.enc 0x60#7 false 0xd#4 o) = _
  rw [decode_arm (LdD.enc_root ..) (LdD.enc_vBit ..), LdD.enc_func4]
  show Except.ok (Instr.ldmAt60h (LdD.dec (LdD.enc 0x60#7 false 0xd#4 o))) = _
  simp only [LdD.enc_dec, LdD.enc_f4]
theorem Laws.RoundTrip.ldmAt61h (o : LdX) : Laws.RoundTrip.Statement (.ldmAt61h o) := by
  intro _
  show decode (LdX.enc 0x61#7 0xd#4 o) = _
  rw [decode_arm (LdX.enc_root ..) (LdX.enc_vBit ..), LdX.enc_func4]
  show Except.ok (Instr.ldmAt61h (LdX.dec (LdX.enc 0x61#7 0xd#4 o))) = _
  simp only [LdX.enc_dec]
theorem Laws.RoundTrip.loadFunc4Is4At60h (o : LdD) : Laws.RoundTrip.Statement (.loadFunc4Is4At60h o) := by
  intro _
  show decode (LdD.enc 0x60#7 false 0x4#4 o) = _
  rw [decode_arm (LdD.enc_root ..) (LdD.enc_vBit ..), LdD.enc_func4]
  show Except.ok (Instr.loadFunc4Is4At60h (LdD.dec (LdD.enc 0x60#7 false 0x4#4 o))) = _
  simp only [LdD.enc_dec, LdD.enc_f4]
theorem Laws.RoundTrip.loadFunc4Is5At60h (o : LdD) : Laws.RoundTrip.Statement (.loadFunc4Is5At60h o) := by
  intro _
  show decode (LdD.enc 0x60#7 false 0x5#4 o) = _
  rw [decode_arm (LdD.enc_root ..) (LdD.enc_vBit ..), LdD.enc_func4]
  show Except.ok (Instr.loadFunc4Is5At60h (LdD.dec (LdD.enc 0x60#7 false 0x5#4 o))) = _
  simp only [LdD.enc_dec, LdD.enc_f4]
theorem Laws.RoundTrip.loadFunc4Is4At61h (o : LdX) : Laws.RoundTrip.Statement (.loadFunc4Is4At61h o) := by
  intro _
  show decode (LdX.enc 0x61#7 0x4#4 o) = _
  rw [decode_arm (LdX.enc_root ..) (LdX.enc_vBit ..), LdX.enc_func4]
  show Except.ok (Instr.loadFunc4Is4At61h (LdX.dec (LdX.enc 0x61#7 0x4#4 o))) = _
  simp only [LdX.enc_dec]
theorem Laws.RoundTrip.loadFunc4Is5At61h (o : LdX) : Laws.RoundTrip.Statement (.loadFunc4Is5At61h o) := by
  intro _
  show decode (LdX.enc 0x61#7 0x5#4 o) = _
  rw [decode_arm (LdX.enc_root ..) (LdX.enc_vBit ..), LdX.enc_func4]
  show Except.ok (Instr.loadFunc4Is5At61h (LdX.dec (LdX.enc 0x61#7 0x5#4 o))) = _
  simp only [LdX.enc_dec]
theorem Laws.RoundTrip.loadFunc4Is4At64h (o : LdD) : Laws.RoundTrip.Statement (.loadFunc4Is4At64h o) := by
  intro _
  show decode (LdD.enc 0x64#7 false 0x4#4 o) = _
  rw [decode_arm (LdD.enc_root ..) (LdD.enc_vBit ..), LdD.enc_func4]
  show Except.ok (Instr.loadFunc4Is4At64h (LdD.dec (LdD.enc 0x64#7 false 0x4#4 o))) = _
  simp only [LdD.enc_dec, LdD.enc_f4]
theorem Laws.RoundTrip.loadFunc4Is5At64h (o : LdD) : Laws.RoundTrip.Statement (.loadFunc4Is5At64h o) := by
  intro _
  show decode (LdD.enc 0x64#7 false 0x5#4 o) = _
  rw [decode_arm (LdD.enc_root ..) (LdD.enc_vBit ..), LdD.enc_func4]
  show Except.ok (Instr.loadFunc4Is5At64h (LdD.dec (LdD.enc 0x64#7 false 0x5#4 o))) = _
  simp only [LdD.enc_dec, LdD.enc_f4]
theorem Laws.RoundTrip.loadFunc4Is4At65h (o : LdX) : Laws.RoundTrip.Statement (.loadFunc4Is4At65h o) := by
  intro _
  show decode (LdX.enc 0x65#7 0x4#4 o) = _
  rw [decode_arm (LdX.enc_root ..) (LdX.enc_vBit ..), LdX.enc_func4]
  show Except.ok (Instr.loadFunc4Is4At65h (LdX.dec (LdX.enc 0x65#7 0x4#4 o))) = _
  simp only [LdX.enc_dec]
theorem Laws.RoundTrip.loadFunc4Is5At65h (o : LdX) : Laws.RoundTrip.Statement (.loadFunc4Is5At65h o) := by
  intro _
  show decode (LdX.enc 0x65#7 0x5#4 o) = _
  rw [decode_arm (LdX.enc_root ..) (LdX.enc_vBit ..), LdX.enc_func4]
  show Except.ok (Instr.loadFunc4Is5At65h (LdX.dec (LdX.enc 0x65#7 0x5#4 o))) = _
  simp only [LdX.enc_dec]
theorem Laws.RoundTrip.cache (o : CacheOps) : Laws.RoundTrip.Statement (.cache o) := by
  intro _
  show decode (CacheOps.enc o) = _
  rw [decode_arm (CacheOps.enc_root ..) (CacheOps.enc_vBit ..), CacheOps.enc_func4]
  show Except.ok (Instr.cache (CacheOps.dec (CacheOps.enc o))) = _
  simp only [CacheOps.enc_dec]
theorem Laws.RoundTrip.stb (o : StD) : Laws.RoundTrip.Statement (.stb o) := by
  intro _
  show decode (StD.enc 0x68#7 false 0x0#4 o) = _
  rw [decode_arm (StD.enc_root ..) (StD.enc_vBit ..), StD.enc_func4]
  show Except.ok (Instr.stb (StD.dec (StD.enc 0x68#7 false 0x0#4 o))) = _
  simp only [StD.enc_dec, StD.enc_f4]
theorem Laws.RoundTrip.stbIndexed (o : StX) : Laws.RoundTrip.Statement (.stbIndexed o) := by
  intro _
  show decode (StX.enc 0x69#7 0x0#4 o) = _
  rw [decode_arm (StX.enc_root ..) (StX.enc_vBit ..), StX.enc_func4]
  show Except.ok (Instr.stbIndexed (StX.dec (StX.enc 0x69#7 0x0#4 o))) = _
  simp only [StX.enc_dec]
theorem Laws.RoundTrip.stw (o : StD) : Laws.RoundTrip.Statement (.stw o) := by
  intro _
  show decode (StD.enc 0x68#7 false 0x1#4 o) = _
  rw [decode_arm (StD.enc_root ..) (StD.enc_vBit ..), StD.enc_func4]
  show Except.ok (Instr.stw (StD.dec (StD.enc 0x68#7 false 0x1#4 o))) = _
  simp only [StD.enc_dec, StD.enc_f4]
theorem Laws.RoundTrip.stwIndexed (o : StX) : Laws.RoundTrip.Statement (.stwIndexed o) := by
  intro _
  show decode (StX.enc 0x69#7 0x1#4 o) = _
  rw [decode_arm (StX.enc_root ..) (StX.enc_vBit ..), StX.enc_func4]
  show Except.ok (Instr.stwIndexed (StX.dec (StX.enc 0x69#7 0x1#4 o))) = _
  simp only [StX.enc_dec]
theorem Laws.RoundTrip.stt (o : StD) : Laws.RoundTrip.Statement (.stt o) := by
  intro _
  show decode (StD.enc 0x68#7 false 0x2#4 o) = _
  rw [decode_arm (StD.enc_root ..) (StD.enc_vBit ..), StD.enc_func4]
  show Except.ok (Instr.stt (StD.dec (StD.enc 0x68#7 false 0x2#4 o))) = _
  simp only [StD.enc_dec, StD.enc_f4]
theorem Laws.RoundTrip.sttIndexed (o : StX) : Laws.RoundTrip.Statement (.sttIndexed o) := by
  intro _
  show decode (StX.enc 0x69#7 0x2#4 o) = _
  rw [decode_arm (StX.enc_root ..) (StX.enc_vBit ..), StX.enc_func4]
  show Except.ok (Instr.sttIndexed (StX.dec (StX.enc 0x69#7 0x2#4 o))) = _
  simp only [StX.enc_dec]
theorem Laws.RoundTrip.sto (o : StD) : Laws.RoundTrip.Statement (.sto o) := by
  intro _
  show decode (StD.enc 0x68#7 false 0x3#4 o) = _
  rw [decode_arm (StD.enc_root ..) (StD.enc_vBit ..), StD.enc_func4]
  show Except.ok (Instr.sto (StD.dec (StD.enc 0x68#7 false 0x3#4 o))) = _
  simp only [StD.enc_dec, StD.enc_f4]
theorem Laws.RoundTrip.stoIndexed (o : StX) : Laws.RoundTrip.Statement (.stoIndexed o) := by
  intro _
  show decode (StX.enc 0x69#7 0x3#4 o) = _
  rw [decode_arm (StX.enc_root ..) (StX.enc_vBit ..), StX.enc_func4]
  show Except.ok (Instr.stoIndexed (StX.dec (StX.enc 0x69#7 0x3#4 o))) = _
  simp only [StX.enc_dec]
theorem Laws.RoundTrip.stptr (o : StD) : Laws.RoundTrip.Statement (.stptr o) := by
  intro _
  show decode (StD.enc 0x68#7 false 0x7#4 o) = _
  rw [decode_arm (StD.enc_root ..) (StD.enc_vBit ..), StD.enc_func4]
  show Except.ok (Instr.stptr (StD.dec (StD.enc 0x68#7 false 0x7#4 o))) = _
  simp only [StD.enc_dec, StD.enc_f4]
theorem Laws.RoundTrip.stptrIndexed (o : StX) : Laws.RoundTrip.Statement (.stptrIndexed o) := by
  intro _
  show decode (StX.enc 0x69#7 0x7#4 o) = _
  rw [decode_arm (StX.enc_root ..) (StX.enc_vBit ..), StX.enc_func4]
  show Except.ok (Instr.stptrIndexed (StX.dec (StX.enc 0x69#7 0x7#4 o))) = _
  simp only [StX.enc_dec]
theorem Laws.RoundTrip.stm (o : StD) : Laws.RoundTrip.Statement (.stm o) := by
  intro _
  show decode (StD.enc 0x68#7 false 0xd#4 o) = _
  rw [decode_arm (StD.enc_root ..) (StD.enc_vBit ..), StD.enc_func4]
  show Except.ok (Instr.stm (StD.dec (StD.enc 0x68#7 false 0xd#4 o))) = _
  simp only [StD.enc_dec, StD.enc_f4]
theorem Laws.RoundTrip.stmIndexed (o : StX) : Laws.RoundTrip.Statement (.stmIndexed o) := by
  intro _
  show decode (StX.enc 0x69#7 0xd#4 o) = _
  rw [decode_arm (StX.enc_root ..) (StX.enc_vBit ..), StX.enc_func4]
  show Except.ok (Instr.stmIndexed (StX.dec (StX.enc 0x69#7 0xd#4 o))) = _
  simp only [StX.enc_dec]
theorem Laws.RoundTrip.pop (o : R2) : Laws.RoundTrip.Statement (.pop o) := by
  intro _
  show decode (R2.enc 0x67#7 0x8#7 false 0#2 o) = _
  rw [decode_arm (R2.enc_root ..) (R2.enc_vBit ..), R2.enc_func4]
  show Except.ok (Instr.pop (R2.dec (R2.enc 0x67#7 0x8#7 false 0#2 o))) = _
  simp only [R2.enc_dec, R2.enc_opt]
theorem Laws.RoundTrip.popPair (o : R2) : Laws.RoundTrip.Statement (.popPair o) := by
  intro _
  show decode (R2.enc 0x67#7 0x10#7 false 0#2 o) = _
  rw [decode_arm (R2.enc_root ..) (R2.enc_vBit ..), R2.enc_func4]
  show Except.ok (Instr.popPair (R2.dec (R2.enc 0x67#7 0x10#7 false 0#2 o))) = _
  simp only [R2.enc_dec, R2.enc_opt]
theorem Laws.RoundTrip.push (o : R2) : Laws.RoundTrip.Statement (.push o) := by
  intro _
  show decode (R2.enc 0x6f#7 0x8#7 false 0#2 o) = _
  rw [decode_arm (R2.enc_root ..) (R2.enc_vBit ..), R2.enc_func4]
  show Except.ok (Instr.push (R2.dec (R2.enc 0x6f#7 0x8#7 false 0#2 o))) = _
  simp only [R2.enc_dec, R2.enc_opt]
theorem Laws.RoundTrip.pushPair (o : R2) : Laws.RoundTrip.Statement (.pushPair o) := by
  intro _
  show decode (R2.enc 0x6f#7 0x10#7 false 0#2 o) = _
  rw [decode_arm (R2.enc_root ..) (R2.enc_vBit ..), R2.enc_func4]
  show Except.ok (Instr.pushPair (R2.dec (R2.enc 0x6f#7 0x10#7 false 0#2 o))) = _
  simp only [R2.enc_dec, R2.enc_opt]
theorem Laws.RoundTrip.ldsx (f4 : BitVec 4) (o : LdD) : Laws.RoundTrip.Statement (.ldsx f4 o) := by
  intro _
  show decode (LdD.enc 0x62#7 true f4 o) = _
  rw [decode_arm (LdD.enc_root ..) (LdD.enc_vBit ..)]
  show Except.ok (Instr.ldsx ((LdD.enc 0x62#7 true f4 o).extractLsb' 32 4) (LdD.dec (LdD.enc 0x62#7 true f4 o))) = _
  simp only [LdD.enc_dec, LdD.enc_f4]
theorem Laws.RoundTrip.ldxvx (f4 : BitVec 4) (o : LdD) : Laws.RoundTrip.Statement (.ldxvx f4 o) := by
  intro _
  show decode (LdD.enc 0x63#7 true f4 o) = _
  rw [decode_arm (LdD.enc_root ..) (LdD.enc_vBit ..)]
  show Except.ok (Instr.ldxvx ((LdD.enc 0x63#7 true f4 o).extractLsb' 32 4) (LdD.dec (LdD.enc 0x63#7 true f4 o))) = _
  simp only [LdD.enc_dec, LdD.enc_f4]
theorem Laws.RoundTrip.cvldsx (f4 : BitVec 4) (o : LdD) : Laws.RoundTrip.Statement (.cvldsx f4 o) := by
  intro _
  show decode (LdD.enc 0x66#7 true f4 o) = _
  rw [decode_arm (LdD.enc_root ..) (LdD.enc_vBit ..)]
  show Except.ok (Instr.cvldsx ((LdD.enc 0x66#7 true f4 o).extractLsb' 32 4) (LdD.dec (LdD.enc 0x66#7 true f4 o))) = _
  simp only [LdD.enc_dec, LdD.enc_f4]
theorem Laws.RoundTrip.cvldxvx (f4 : BitVec 4) (o : LdD) : Laws.RoundTrip.Statement (.cvldxvx f4 o) := by
  intro _
  show decode (LdD.enc 0x67#7 true f4 o) = _
  rw [decode_arm (LdD.enc_root ..) (LdD.enc_vBit ..)]
  show Except.ok (Instr.cvldxvx ((LdD.enc 0x67#7 true f4 o).extractLsb' 32 4) (LdD.dec (LdD.enc 0x67#7 true f4 o))) = _
  simp only [LdD.enc_dec, LdD.enc_f4]
theorem Laws.RoundTrip.stsx (f4 : BitVec 4) (o : StD) : Laws.RoundTrip.Statement (.stsx f4 o) := by
  intro _
  show decode (StD.enc 0x72#7 true f4 o) = _
  rw [decode_arm (StD.enc_root ..) (StD.enc_vBit ..)]
  show Except.ok (Instr.stsx ((StD.enc 0x72#7 true f4 o).extractLsb' 32 4) (StD.dec (StD.enc 0x72#7 true f4 o))) = _
  simp only [StD.enc_dec, StD.enc_f4]
theorem Laws.RoundTrip.stxvx (f4 : BitVec 4) (o : StD) : Laws.RoundTrip.Statement (.stxvx f4 o) := by
  intro _
  show decode (StD.enc 0x73#7 true f4 o) = _
  rw [decode_arm (StD.enc_root ..) (StD.enc_vBit ..)]
  show Except.ok (Instr.stxvx ((StD.enc 0x73#7 true f4 o).extractLsb' 32 4) (StD.dec (StD.enc 0x73#7 true f4 o))) = _
  simp only [StD.enc_dec, StD.enc_f4]
theorem Laws.RoundTrip.cvstsx (f4 : BitVec 4) (o : StD) : Laws.RoundTrip.Statement (.cvstsx f4 o) := by
  intro _
  show decode (StD.enc 0x76#7 true f4 o) = _
  rw [decode_arm (StD.enc_root ..) (StD.enc_vBit ..)]
  show Except.ok (Instr.cvstsx ((StD.enc 0x76#7 true f4 o).extractLsb' 32 4) (StD.dec (StD.enc 0x76#7 true f4 o))) = _
  simp only [StD.enc_dec, StD.enc_f4]
theorem Laws.RoundTrip.cvstxvx (f4 : BitVec 4) (o : StD) : Laws.RoundTrip.Statement (.cvstxvx f4 o) := by
  intro _
  show decode (StD.enc 0x77#7 true f4 o) = _
  rw [decode_arm (StD.enc_root ..) (StD.enc_vBit ..)]
  show Except.ok (Instr.cvstxvx ((StD.enc 0x77#7 true f4 o).extractLsb' 32 4) (StD.dec (StD.enc 0x77#7 true f4 o))) = _
  simp only [StD.enc_dec, StD.enc_f4]
theorem Laws.RoundTrip.cRti : Laws.RoundTrip.Statement .cRti := by
  intro _
  show decode (word20 (0x78#7 ++ 0x0#5) 0x70#8) = _
  rw [decode_arm (word20_root _ _) (word20_vBit _ _)]
  rfl
theorem Laws.RoundTrip.cPfi : Laws.RoundTrip.Statement .cPfi := by
  intro _
  show decode (word20 (0x79#7 ++ 0x0#5) 0x70#8) = _
  rw [decode_arm (word20_root _ _) (word20_vBit _ _)]
  rfl
theorem Laws.RoundTrip.cWfi : Laws.RoundTrip.Statement .cWfi := by
  intro _
  show decode (word20 (0x7b#7 ++ 0x0#5) 0x70#8) = _
  rw [decode_arm (word20_root _ _) (word20_vBit _ _)]
  rfl
theorem Laws.RoundTrip.cSync : Laws.RoundTrip.Statement .cSync := by
  intro _
  show decode (word20 (0x7d#7 ++ 0x0#5) 0x70#8) = _
  rw [decode_arm (word20_root _ _) (word20_vBit _ _)]
  rfl
theorem Laws.RoundTrip.cBrk (cause : BitVec 7) : Laws.RoundTrip.Statement (.cBrk cause) := by
  intro h
  show decode (word20 (cause ++ 0x0#5) 0x70#8) = _
  rw [decode_arm (word20_root _ _) (word20_vBit _ _)]
  show decode70 (word20 (cause ++ 0x0#5) 0x70#8 |>.extractLsb' 13 7).toNat (word20 (cause ++ 0x0#5) 0x70#8 |>.extractLsb' 8 5).toNat _ = _
  simp (disch := decide) only [word20_field, ext_hi, ext_lo, Nat.reduceSub, ext_all, bit, bit_ofBool]
  simp only [Instr.wellFormed, Bool.not_eq_true', Bool.or_eq_false_iff, beq_eq_false_iff_ne, ne_eq] at h
  have h2 : ∀ c : BitVec 7, c ≠ 120#7 → c ≠ 121#7 → c ≠ 123#7 → c ≠ 125#7 → ∀ w : BitVec 36,
      decode70 c.toNat 0 w = .ok (.cBrk (w.extractLsb' 13 7)) := by
    intro c h1 h2 h3 h4 w
    have e : ∀ k : BitVec 7, c ≠ k → c.toNat ≠ k.toNat := fun k hk he => hk (BitVec.eq_of_toNat_eq he)
    have e1 := e _ h1
    have e2 := e _ h2
    have e3 := e _ h3
    have e4 := e _ h4
    unfold decode70
    split
    · split <;> first | rfl | (exfalso; simp_all)
    · simp_all
  obtain ⟨⟨⟨h1, h3⟩, h4⟩, h5⟩ := h
  rw [show (0#5).toNat = 0 from rfl, h2 _ h1 h3 h4 h5]
  simp (disch := decide) only [word20_field, ext_hi, ext_lo, Nat.reduceSub, ext_all, bit, bit_ofBool]
theorem Laws.RoundTrip.cLdoFp (k : BitVec 7) (r : BitVec 5) : Laws.RoundTrip.Statement (.cLdoFp k r) := by
  intro h
  show decode (word20 (k ++ r) 0x70#8) = _
  rw [decode_arm (word20_root _ _) (word20_vBit _ _)]
  show decode70 (word20 (k ++ r) 0x70#8 |>.extractLsb' 13 7).toNat (word20 (k ++ r) 0x70#8 |>.extractLsb' 8 5).toNat _ = _
  simp (disch := decide) only [word20_field, ext_hi, ext_lo, Nat.reduceSub, ext_all, bit, bit_ofBool]
  have h2 : ∀ n : Nat, n ≠ 0 → ∀ w : BitVec 36,
      decode70 k.toNat n w = .ok (.cLdoFp (w.extractLsb' 13 7) (w.extractLsb' 8 5)) := by
    intro n hn w
    cases n with
    | zero => exact absurd rfl hn
    | succ n => rfl
  have h3 : r.toNat ≠ 0 := by
    intro he
    have : r = 0#5 := BitVec.eq_of_toNat_eq he
    subst this
    exact absurd h (by simp [Instr.wellFormed])
  rw [h2 _ h3]
  simp (disch := decide) only [word20_field, ext_hi, ext_lo, Nat.reduceSub, ext_all, bit, bit_ofBool]
theorem Laws.RoundTrip.cLdoSp (k : BitVec 7) (r : BitVec 5) : Laws.RoundTrip.Statement (.cLdoSp k r) := by
  intro _
  show decode (word20 (k ++ r) 0x71#8) = _
  rw [decode_arm (word20_root _ _) (word20_vBit _ _)]
  show Except.ok (Instr.cLdoSp ((word20 (k ++ r) 0x71#8).extractLsb' 13 7) ((word20 (k ++ r) 0x71#8).extractLsb' 8 5)) = _
  simp (disch := decide) only [word20_field, ext_hi, ext_lo, Nat.reduceSub, ext_all, bit, bit_ofBool]
theorem Laws.RoundTrip.cStoFp (k : BitVec 7) (r : BitVec 5) : Laws.RoundTrip.Statement (.cStoFp k r) := by
  intro _
  show decode (word20 (k ++ r) 0x72#8) = _
  rw [decode_arm (word20_root _ _) (word20_vBit _ _)]
  show Except.ok (Instr.cStoFp ((word20 (k ++ r) 0x72#8).extractLsb' 13 7) ((word20 (k ++ r) 0x72#8).extractLsb' 8 5)) = _
  simp (disch := decide) only [word20_field, ext_hi, ext_lo, Nat.reduceSub, ext_all, bit, bit_ofBool]
theorem Laws.RoundTrip.cStoSp (k : BitVec 7) (r : BitVec 5) : Laws.RoundTrip.Statement (.cStoSp k r) := by
  intro _
  show decode (word20 (k ++ r) 0x73#8) = _
  rw [decode_arm (word20_root _ _) (word20_vBit _ _)]
  show Except.ok (Instr.cStoSp ((word20 (k ++ r) 0x73#8).extractLsb' 13 7) ((word20 (k ++ r) 0x73#8).extractLsb' 8 5)) = _
  simp (disch := decide) only [word20_field, ext_hi, ext_lo, Nat.reduceSub, ext_all, bit, bit_ofBool]
theorem Laws.RoundTrip.cJmp (ra : BitVec 5) (rt : BitVec 2) : Laws.RoundTrip.Statement (.cJmp ra rt) := by
  intro _
  show decode (word20 (0x0#2 ++ ra ++ 0x0#3 ++ rt) 0x74#8) = _
  rw [decode_arm (word20_root _ _) (word20_vBit _ _)]
  show decode74 (word20 (0x0#2 ++ ra ++ 0x0#3 ++ rt) 0x74#8 |>.extractLsb' 18 2).toNat (word20 (0x0#2 ++ ra ++ 0x0#3 ++ rt) 0x74#8 |>.extractLsb' 10 3).toNat _ = _
  rw [word20_field _ _ 18 2 (by decide) (by decide)]
  simp (disch := decide) only [ext_hi, ext_lo, Nat.reduceSub, ext_all]
  rw [show (word20 (0x0#2 ++ ra ++ 0x0#3 ++ rt) 0x74#8 |>.extractLsb' 10 3) = 0#3 by
    simp (disch := decide) only [word20_field, ext_hi, ext_lo, Nat.reduceSub, ext_all, ext_zero]]
  show Except.ok (Instr.cJmp ((word20 (0x0#2 ++ ra ++ 0x0#3 ++ rt) 0x74#8).extractLsb' 13 5) ((word20 (0x0#2 ++ ra ++ 0x0#3 ++ rt) 0x74#8).extractLsb' 8 2)) = _
  simp (disch := decide) only [word20_field, ext_hi, ext_lo, Nat.reduceSub, ext_all, bit, bit_ofBool]
theorem Laws.RoundTrip.cMov (ra : BitVec 5) (rt : BitVec 5) : Laws.RoundTrip.Statement (.cMov ra rt) := by
  intro _
  show decode (word20 (0x1#2 ++ ra ++ rt) 0x74#8) = _
  rw [decode_arm (word20_root _ _) (word20_vBit _ _)]
  show decode74 (word20 (0x1#2 ++ ra ++ rt) 0x74#8 |>.extractLsb' 18 2).toNat (word20 (0x1#2 ++ ra ++ rt) 0x74#8 |>.extractLsb' 10 3).toNat _ = _
  rw [word20_field _ _ 18 2 (by decide) (by decide)]
  simp (disch := decide) only [ext_hi, ext_lo, Nat.reduceSub, ext_all]
  show Except.ok (Instr.cMov ((word20 (0x1#2 ++ ra ++ rt) 0x74#8).extractLsb' 13 5) ((word20 (0x1#2 ++ ra ++ rt) 0x74#8).extractLsb' 8 5)) = _
  simp (disch := decide) only [word20_field, ext_hi, ext_lo, Nat.reduceSub, ext_all, bit, bit_ofBool]
theorem Laws.RoundTrip.cAdd (ra : BitVec 5) (rt : BitVec 5) : Laws.RoundTrip.Statement (.cAdd ra rt) := by
  intro _
  show decode (word20 (0x2#2 ++ ra ++ rt) 0x74#8) = _
  rw [decode_arm (word20_root _ _) (word20_vBit _ _)]
  show decode74 (word20 (0x2#2 ++ ra ++ rt) 0x74#8 |>.extractLsb' 18 2).toNat (word20 (0x2#2 ++ ra ++ rt) 0x74#8 |>.extractLsb' 10 3).toNat _ = _
  rw [word20_field _ _ 18 2 (by decide) (by decide)]
  simp (disch := decide) only [ext_hi, ext_lo, Nat.reduceSub, ext_all]
  show Except.ok (Instr.cAdd ((word20 (0x2#2 ++ ra ++ rt) 0x74#8).extractLsb' 13 5) ((word20 (0x2#2 ++ ra ++ rt) 0x74#8).extractLsb' 8 5)) = _
  simp (disch := decide) only [word20_field, ext_hi, ext_lo, Nat.reduceSub, ext_all, bit, bit_ofBool]
theorem Laws.RoundTrip.cAnd (ra : BitVec 5) (rt : BitVec 5) : Laws.RoundTrip.Statement (.cAnd ra rt) := by
  intro _
  show decode (word20 (0x3#2 ++ ra ++ rt) 0x74#8) = _
  rw [decode_arm (word20_root _ _) (word20_vBit _ _)]
  show decode74 (word20 (0x3#2 ++ ra ++ rt) 0x74#8 |>.extractLsb' 18 2).toNat (word20 (0x3#2 ++ ra ++ rt) 0x74#8 |>.extractLsb' 10 3).toNat _ = _
  rw [word20_field _ _ 18 2 (by decide) (by decide)]
  simp (disch := decide) only [ext_hi, ext_lo, Nat.reduceSub, ext_all]
  show Except.ok (Instr.cAnd ((word20 (0x3#2 ++ ra ++ rt) 0x74#8).extractLsb' 13 5) ((word20 (0x3#2 ++ ra ++ rt) 0x74#8).extractLsb' 8 5)) = _
  simp (disch := decide) only [word20_field, ext_hi, ext_lo, Nat.reduceSub, ext_all, bit, bit_ofBool]
theorem Laws.RoundTrip.cAddi (k : BitVec 7) (r : BitVec 5) : Laws.RoundTrip.Statement (.cAddi k r) := by
  intro _
  show decode (word20 (k ++ r) 0x75#8) = _
  rw [decode_arm (word20_root _ _) (word20_vBit _ _)]
  show Except.ok (Instr.cAddi ((word20 (k ++ r) 0x75#8).extractLsb' 13 7) ((word20 (k ++ r) 0x75#8).extractLsb' 8 5)) = _
  simp (disch := decide) only [word20_field, ext_hi, ext_lo, Nat.reduceSub, ext_all, bit, bit_ofBool]
theorem Laws.RoundTrip.cAndi (k : BitVec 7) (r : BitVec 5) : Laws.RoundTrip.Statement (.cAndi k r) := by
  intro _
  show decode (word20 (k ++ r) 0x76#8) = _
  rw [decode_arm (word20_root _ _) (word20_vBit _ _)]
  show Except.ok (Instr.cAndi ((word20 (k ++ r) 0x76#8).extractLsb' 13 7) ((word20 (k ++ r) 0x76#8).extractLsb' 8 5)) = _
  simp (disch := decide) only [word20_field, ext_hi, ext_lo, Nat.reduceSub, ext_all, bit, bit_ofBool]
theorem Laws.RoundTrip.cOri (k : BitVec 7) (r : BitVec 5) : Laws.RoundTrip.Statement (.cOri k r) := by
  intro _
  show decode (word20 (k ++ r) 0x77#8) = _
  rw [decode_arm (word20_root _ _) (word20_vBit _ _)]
  show Except.ok (Instr.cOri ((word20 (k ++ r) 0x77#8).extractLsb' 13 7) ((word20 (k ++ r) 0x77#8).extractLsb' 8 5)) = _
  simp (disch := decide) only [word20_field, ext_hi, ext_lo, Nat.reduceSub, ext_all, bit, bit_ofBool]
theorem Laws.RoundTrip.cBeqz (k : BitVec 7) (r : BitVec 5) : Laws.RoundTrip.Statement (.cBeqz k r) := by
  intro _
  show decode (word20 (k ++ r) 0x78#8) = _
  rw [decode_arm (word20_root _ _) (word20_vBit _ _)]
  show Except.ok (Instr.cBeqz ((word20 (k ++ r) 0x78#8).extractLsb' 13 7) ((word20 (k ++ r) 0x78#8).extractLsb' 8 5)) = _
  simp (disch := decide) only [word20_field, ext_hi, ext_lo, Nat.reduceSub, ext_all, bit, bit_ofBool]
theorem Laws.RoundTrip.cBnez (k : BitVec 7) (r : BitVec 5) : Laws.RoundTrip.Statement (.cBnez k r) := by
  intro _
  show decode (word20 (k ++ r) 0x79#8) = _
  rw [decode_arm (word20_root _ _) (word20_vBit _ _)]
  show Except.ok (Instr.cBnez ((word20 (k ++ r) 0x79#8).extractLsb' 13 7) ((word20 (k ++ r) 0x79#8).extractLsb' 8 5)) = _
  simp (disch := decide) only [word20_field, ext_hi, ext_lo, Nat.reduceSub, ext_all, bit, bit_ofBool]
theorem Laws.RoundTrip.cBal (k : BitVec 10) (rt : BitVec 2) : Laws.RoundTrip.Statement (.cBal k rt) := by
  intro _
  show decode (word20 (k ++ rt) 0x7a#8) = _
  rw [decode_arm (word20_root _ _) (word20_vBit _ _)]
  show Except.ok (Instr.cBal ((word20 (k ++ rt) 0x7a#8).extractLsb' 10 10) ((word20 (k ++ rt) 0x7a#8).extractLsb' 8 2)) = _
  simp (disch := decide) only [word20_field, ext_hi, ext_lo, Nat.reduceSub, ext_all, bit, bit_ofBool]
theorem Laws.RoundTrip.cLdi (k : BitVec 7) (r : BitVec 5) : Laws.RoundTrip.Statement (.cLdi k r) := by
  intro _
  show decode (word20 (k ++ r) 0x7b#8) = _
  rw [decode_arm (word20_root _ _) (word20_vBit _ _)]
  show Except.ok (Instr.cLdi ((word20 (k ++ r) 0x7b#8).extractLsb' 13 7) ((word20 (k ++ r) 0x7b#8).extractLsb' 8 5)) = _
  simp (disch := decide) only [word20_field, ext_hi, ext_lo, Nat.reduceSub, ext_all, bit, bit_ofBool]
theorem Laws.RoundTrip.cSlli (k : BitVec 5) (rt : BitVec 5) : Laws.RoundTrip.Statement (.cSlli k rt) := by
  intro _
  show decode (word20 (0x0#2 ++ k ++ rt) 0x7c#8) = _
  rw [decode_arm (word20_root _ _) (word20_vBit _ _)]
  show decode7c (word20 (0x0#2 ++ k ++ rt) 0x7c#8 |>.extractLsb' 16 4).toNat (word20 (0x0#2 ++ k ++ rt) 0x7c#8 |>.extractLsb' 11 2).toNat _ = _
  have e : (word20 (0x0#2 ++ k ++ rt) 0x7c#8 |>.extractLsb' 16 4).toNat / 4 = 0x0 := by
    have h : ((word20 (0x0#2 ++ k ++ rt) 0x7c#8 |>.extractLsb' 16 4).extractLsb' 2 2) = 0x0#2 := by
      rw [ext_ext _ _ _ _ _ (by decide)]
      show (word20 (0x0#2 ++ k ++ rt) 0x7c#8 |>.extractLsb' 18 2) = _
      simp (disch := decide) only [word20_field, ext_hi, ext_lo, Nat.reduceSub, ext_all]
    rw [← show ((word20 (0x0#2 ++ k ++ rt) 0x7c#8 |>.extractLsb' 16 4).extractLsb' 2 2).toNat = _ from ext_top _, h]
    rfl
  have g : ∀ n m w, n / 4 = 0x0 → decode7c n m w = .ok (.cSlli (w.extractLsb' 13 5) (w.extractLsb' 8 5)) := by
    intro n m w hn
    unfold decode7c
    rw [hn]
    rfl
  rw [g _ _ _ e]
  show Except.ok (Instr.cSlli ((word20 (0x0#2 ++ k ++ rt) 0x7c#8).extractLsb' 13 5) ((word20 (0x0#2 ++ k ++ rt) 0x7c#8).extractLsb' 8 5)) = _
  simp (disch := decide) only [word20_field, ext_hi, ext_lo, Nat.reduceSub, ext_all, bit, bit_ofBool]
theorem Laws.RoundTrip.cSrli (k : BitVec 5) (rt : BitVec 5) : Laws.RoundTrip.Statement (.cSrli k rt) := by
  intro _
  show decode (word20 (0x1#2 ++ k ++ rt) 0x7c#8) = _
  rw [decode_arm (word20_root _ _) (word20_vBit _ _)]
  show decode7c (word20 (0x1#2 ++ k ++ rt) 0x7c#8 |>.extractLsb' 16 4).toNat (word20 (0x1#2 ++ k ++ rt) 0x7c#8 |>.extractLsb' 11 2).toNat _ = _
  have e : (word20 (0x1#2 ++ k ++ rt) 0x7c#8 |>.extractLsb' 16 4).toNat / 4 = 0x1 := by
    have h : ((word20 (0x1#2 ++ k ++ rt) 0x7c#8 |>.extractLsb' 16 4).extractLsb' 2 2) = 0x1#2 := by
      rw [ext_ext _ _ _ _ _ (by decide)]
      show (word20 (0x1#2 ++ k ++ rt) 0x7c#8 |>.extractLsb' 18 2) = _
      simp (disch := decide) only [word20_field, ext_hi, ext_lo, Nat.reduceSub, ext_all]
    rw [← show ((word20 (0x1#2 ++ k ++ rt) 0x7c#8 |>.extractLsb' 16 4).extractLsb' 2 2).toNat = _ from ext_top _, h]
    rfl
  have g : ∀ n m w, n / 4 = 0x1 → decode7c n m w = .ok (.cSrli (w.extractLsb' 13 5) (w.extractLsb' 8 5)) := by
    intro n m w hn
    unfold decode7c
    rw [hn]
    rfl
  rw [g _ _ _ e]
  show Except.ok (Instr.cSrli ((word20 (0x1#2 ++ k ++ rt) 0x7c#8).extractLsb' 13 5) ((word20 (0x1#2 ++ k ++ rt) 0x7c#8).extractLsb' 8 5)) = _
  simp (disch := decide) only [word20_field, ext_hi, ext_lo, Nat.reduceSub, ext_all, bit, bit_ofBool]
theorem Laws.RoundTrip.cSrai (k : BitVec 5) (rt : BitVec 5) : Laws.RoundTrip.Statement (.cSrai k rt) := by
  intro _
  show decode (word20 (0x2#2 ++ k ++ rt) 0x7c#8) = _
  rw [decode_arm (word20_root _ _) (word20_vBit _ _)]
  show decode7c (word20 (0x2#2 ++ k ++ rt) 0x7c#8 |>.extractLsb' 16 4).toNat (word20 (0x2#2 ++ k ++ rt) 0x7c#8 |>.extractLsb' 11 2).toNat _ = _
  have e : (word20 (0x2#2 ++ k ++ rt) 0x7c#8 |>.extractLsb' 16 4).toNat / 4 = 0x2 := by
    have h : ((word20 (0x2#2 ++ k ++ rt) 0x7c#8 |>.extractLsb' 16 4).extractLsb' 2 2) = 0x2#2 := by
      rw [ext_ext _ _ _ _ _ (by decide)]
      show (word20 (0x2#2 ++ k ++ rt) 0x7c#8 |>.extractLsb' 18 2) = _
      simp (disch := decide) only [word20_field, ext_hi, ext_lo, Nat.reduceSub, ext_all]
    rw [← show ((word20 (0x2#2 ++ k ++ rt) 0x7c#8 |>.extractLsb' 16 4).extractLsb' 2 2).toNat = _ from ext_top _, h]
    rfl
  have g : ∀ n m w, n / 4 = 0x2 → decode7c n m w = .ok (.cSrai (w.extractLsb' 13 5) (w.extractLsb' 8 5)) := by
    intro n m w hn
    unfold decode7c
    rw [hn]
    rfl
  rw [g _ _ _ e]
  show Except.ok (Instr.cSrai ((word20 (0x2#2 ++ k ++ rt) 0x7c#8).extractLsb' 13 5) ((word20 (0x2#2 ++ k ++ rt) 0x7c#8).extractLsb' 8 5)) = _
  simp (disch := decide) only [word20_field, ext_hi, ext_lo, Nat.reduceSub, ext_all, bit, bit_ofBool]
theorem Laws.RoundTrip.cSub (rb : BitVec 3) (rt : BitVec 3) : Laws.RoundTrip.Statement (.cSub rb rt) := by
  intro _
  show decode (word20 (0x3#2 ++ 0x0#2 ++ rb ++ 0x0#2 ++ rt) 0x7c#8) = _
  rw [decode_arm (word20_root _ _) (word20_vBit _ _)]
  show decode7c (word20 (0x3#2 ++ 0x0#2 ++ rb ++ 0x0#2 ++ rt) 0x7c#8 |>.extractLsb' 16 4).toNat (word20 (0x3#2 ++ 0x0#2 ++ rb ++ 0x0#2 ++ rt) 0x7c#8 |>.extractLsb' 11 2).toNat _ = _
  rw [show (word20 (0x3#2 ++ 0x0#2 ++ rb ++ 0x0#2 ++ rt) 0x7c#8 |>.extractLsb' 16 4) = 12#4 by
      rw [word20_field _ _ 16 4 (by decide) (by decide)]
      simp only [Nat.reduceSub]
      exact seven_sel _ _ _ _ _,
    show (word20 (0x3#2 ++ 0x0#2 ++ rb ++ 0x0#2 ++ rt) 0x7c#8 |>.extractLsb' 11 2) = 0x0#2 by
      simp (disch := decide) only [word20_field, ext_hi, ext_lo, Nat.reduceSub, ext_all]]
  show Except.ok (Instr.cSub ((word20 (0x3#2 ++ 0x0#2 ++ rb ++ 0x0#2 ++ rt) 0x7c#8).extractLsb' 13 3) ((word20 (0x3#2 ++ 0x0#2 ++ rb ++ 0x0#2 ++ rt) 0x7c#8).extractLsb' 8 3)) = _
  simp (disch := decide) only [word20_field, ext_hi, ext_lo, Nat.reduceSub, ext_all, bit, bit_ofBool]
theorem Laws.RoundTrip.cOr (rb : BitVec 3) (rt : BitVec 3) : Laws.RoundTrip.Statement (.cOr rb rt) := by
  intro _
  show decode (word20 (0x3#2 ++ 0x0#2 ++ rb ++ 0x1#2 ++ rt) 0x7c#8) = _
  rw [decode_arm (word20_root _ _) (word20_vBit _ _)]
  show decode7c (word20 (0x3#2 ++ 0x0#2 ++ rb ++ 0x1#2 ++ rt) 0x7c#8 |>.extractLsb' 16 4).toNat (word20 (0x3#2 ++ 0x0#2 ++ rb ++ 0x1#2 ++ rt) 0x7c#8 |>.extractLsb' 11 2).toNat _ = _
  rw [show (word20 (0x3#2 ++ 0x0#2 ++ rb ++ 0x1#2 ++ rt) 0x7c#8 |>.extractLsb' 16 4) = 12#4 by
      rw [word20_field _ _ 16 4 (by decide) (by decide)]
      simp only [Nat.reduceSub]
      exact seven_sel _ _ _ _ _,
    show (word20 (0x3#2 ++ 0x0#2 ++ rb ++ 0x1#2 ++ rt) 0x7c#8 |>.extractLsb' 11 2) = 0x1#2 by
      simp (disch := decide) only [word20_field, ext_hi, ext_lo, Nat.reduceSub, ext_all]]
  show Except.ok (Instr.cOr ((word20 (0x3#2 ++ 0x0#2 ++ rb ++ 0x1#2 ++ rt) 0x7c#8).extractLsb' 13 3) ((word20 (0x3#2 ++ 0x0#2 ++ rb ++ 0x1#2 ++ rt) 0x7c#8).extractLsb' 8 3)) = _
  simp (disch := decide) only [word20_field, ext_hi, ext_lo, Nat.reduceSub, ext_all, bit, bit_ofBool]
theorem Laws.RoundTrip.cXor (rb : BitVec 3) (rt : BitVec 3) : Laws.RoundTrip.Statement (.cXor rb rt) := by
  intro _
  show decode (word20 (0x3#2 ++ 0x0#2 ++ rb ++ 0x2#2 ++ rt) 0x7c#8) = _
  rw [decode_arm (word20_root _ _) (word20_vBit _ _)]
  show decode7c (word20 (0x3#2 ++ 0x0#2 ++ rb ++ 0x2#2 ++ rt) 0x7c#8 |>.extractLsb' 16 4).toNat (word20 (0x3#2 ++ 0x0#2 ++ rb ++ 0x2#2 ++ rt) 0x7c#8 |>.extractLsb' 11 2).toNat _ = _
  rw [show (word20 (0x3#2 ++ 0x0#2 ++ rb ++ 0x2#2 ++ rt) 0x7c#8 |>.extractLsb' 16 4) = 12#4 by
      rw [word20_field _ _ 16 4 (by decide) (by decide)]
      simp only [Nat.reduceSub]
      exact seven_sel _ _ _ _ _,
    show (word20 (0x3#2 ++ 0x0#2 ++ rb ++ 0x2#2 ++ rt) 0x7c#8 |>.extractLsb' 11 2) = 0x2#2 by
      simp (disch := decide) only [word20_field, ext_hi, ext_lo, Nat.reduceSub, ext_all]]
  show Except.ok (Instr.cXor ((word20 (0x3#2 ++ 0x0#2 ++ rb ++ 0x2#2 ++ rt) 0x7c#8).extractLsb' 13 3) ((word20 (0x3#2 ++ 0x0#2 ++ rb ++ 0x2#2 ++ rt) 0x7c#8).extractLsb' 8 3)) = _
  simp (disch := decide) only [word20_field, ext_hi, ext_lo, Nat.reduceSub, ext_all, bit, bit_ofBool]
theorem Laws.RoundTrip.cNand (rb : BitVec 3) (rt : BitVec 3) : Laws.RoundTrip.Statement (.cNand rb rt) := by
  intro _
  show decode (word20 (0x3#2 ++ 0x0#2 ++ rb ++ 0x3#2 ++ rt) 0x7c#8) = _
  rw [decode_arm (word20_root _ _) (word20_vBit _ _)]
  show decode7c (word20 (0x3#2 ++ 0x0#2 ++ rb ++ 0x3#2 ++ rt) 0x7c#8 |>.extractLsb' 16 4).toNat (word20 (0x3#2 ++ 0x0#2 ++ rb ++ 0x3#2 ++ rt) 0x7c#8 |>.extractLsb' 11 2).toNat _ = _
  rw [show (word20 (0x3#2 ++ 0x0#2 ++ rb ++ 0x3#2 ++ rt) 0x7c#8 |>.extractLsb' 16 4) = 12#4 by
      rw [word20_field _ _ 16 4 (by decide) (by decide)]
      simp only [Nat.reduceSub]
      exact seven_sel _ _ _ _ _,
    show (word20 (0x3#2 ++ 0x0#2 ++ rb ++ 0x3#2 ++ rt) 0x7c#8 |>.extractLsb' 11 2) = 0x3#2 by
      simp (disch := decide) only [word20_field, ext_hi, ext_lo, Nat.reduceSub, ext_all]]
  show Except.ok (Instr.cNand ((word20 (0x3#2 ++ 0x0#2 ++ rb ++ 0x3#2 ++ rt) 0x7c#8).extractLsb' 13 3) ((word20 (0x3#2 ++ 0x0#2 ++ rb ++ 0x3#2 ++ rt) 0x7c#8).extractLsb' 8 3)) = _
  simp (disch := decide) only [word20_field, ext_hi, ext_lo, Nat.reduceSub, ext_all, bit, bit_ofBool]
theorem Laws.RoundTrip.cNor (rb : BitVec 3) (rt : BitVec 3) : Laws.RoundTrip.Statement (.cNor rb rt) := by
  intro _
  show decode (word20 (0x3#2 ++ 0x1#2 ++ rb ++ 0x0#2 ++ rt) 0x7c#8) = _
  rw [decode_arm (word20_root _ _) (word20_vBit _ _)]
  show decode7c (word20 (0x3#2 ++ 0x1#2 ++ rb ++ 0x0#2 ++ rt) 0x7c#8 |>.extractLsb' 16 4).toNat (word20 (0x3#2 ++ 0x1#2 ++ rb ++ 0x0#2 ++ rt) 0x7c#8 |>.extractLsb' 11 2).toNat _ = _
  rw [show (word20 (0x3#2 ++ 0x1#2 ++ rb ++ 0x0#2 ++ rt) 0x7c#8 |>.extractLsb' 16 4) = 13#4 by
      rw [word20_field _ _ 16 4 (by decide) (by decide)]
      simp only [Nat.reduceSub]
      exact seven_sel _ _ _ _ _,
    show (word20 (0x3#2 ++ 0x1#2 ++ rb ++ 0x0#2 ++ rt) 0x7c#8 |>.extractLsb' 11 2) = 0x0#2 by
      simp (disch := decide) only [word20_field, ext_hi, ext_lo, Nat.reduceSub, ext_all]]
  show Except.ok (Instr.cNor ((word20 (0x3#2 ++ 0x1#2 ++ rb ++ 0x0#2 ++ rt) 0x7c#8).extractLsb' 13 3) ((word20 (0x3#2 ++ 0x1#2 ++ rb ++ 0x0#2 ++ rt) 0x7c#8).extractLsb' 8 3)) = _
  simp (disch := decide) only [word20_field, ext_hi, ext_lo, Nat.reduceSub, ext_all, bit, bit_ofBool]
theorem Laws.RoundTrip.c7chUnlisted : Laws.RoundTrip.Statement .c7chUnlisted := by
  intro _
  show decode (word20 0xe00#12 0x7c#8) = _
  rw [decode_arm (word20_root _ _) (word20_vBit _ _)]
  rfl
theorem Laws.RoundTrip.c7dhReserved : Laws.RoundTrip.Statement .c7dhReserved := by
  intro _
  show decode (word20 0x0#12 0x7d#8) = _
  rw [decode_arm (word20_root _ _) (word20_vBit _ _)]
  rfl
theorem Laws.RoundTrip.cLdmSp (list : BitVec 11) (e : Bool) : Laws.RoundTrip.Statement (.cLdmSp list e) := by
  intro _
  show decode (word20 (list ++ BitVec.ofBool e) 0x7e#8) = _
  rw [decode_arm (word20_root _ _) (word20_vBit _ _)]
  show Except.ok (Instr.cLdmSp ((word20 (list ++ BitVec.ofBool e) 0x7e#8).extractLsb' 9 11) (bit (word20 (list ++ BitVec.ofBool e) 0x7e#8) 8)) = _
  simp (disch := decide) only [word20_field, ext_hi, ext_lo, Nat.reduceSub, ext_all, bit, bit_ofBool]
theorem Laws.RoundTrip.c7fhNoRow : Laws.RoundTrip.Statement .c7fhNoRow := by
  intro _
  show decode (word20 0x0#12 0x7f#8) = _
  rw [decode_arm (word20_root _ _) (word20_vBit _ _)]
  rfl
theorem Laws.RoundTrip.scalebDecimal (v : Bool) (o : R2) : Laws.RoundTrip.Statement (.scalebDecimal v o) := by
  intro _
  show decode (R2.enc 0x31#7 0x0#7 v 0#2 o) = _
  rw [decode_arm (R2.enc_root ..) (R2.enc_vBit ..), R2.enc_func]
  show Except.ok (Instr.scalebDecimal (vBit (R2.enc 0x31#7 0x0#7 v 0#2 o)) (R2.dec (R2.enc 0x31#7 0x0#7 v 0#2 o))) = _
  simp only [R2.enc_dec, R2.enc_vBit, R2.enc_opt]
theorem Laws.RoundTrip.cpysgnDecimal (v : Bool) (o : R2) : Laws.RoundTrip.Statement (.cpysgnDecimal v o) := by
  intro _
  show decode (R2.enc 0x31#7 0x18#7 v 0#2 o) = _
  rw [decode_arm (R2.enc_root ..) (R2.enc_vBit ..), R2.enc_func]
  show Except.ok (Instr.cpysgnDecimal (vBit (R2.enc 0x31#7 0x18#7 v 0#2 o)) (R2.dec (R2.enc 0x31#7 0x18#7 v 0#2 o))) = _
  simp only [R2.enc_dec, R2.enc_vBit, R2.enc_opt]
theorem Laws.RoundTrip.sgninvDecimal (v : Bool) (o : R2) : Laws.RoundTrip.Statement (.sgninvDecimal v o) := by
  intro _
  show decode (R2.enc 0x31#7 0x19#7 v 0#2 o) = _
  rw [decode_arm (R2.enc_root ..) (R2.enc_vBit ..), R2.enc_func]
  show Except.ok (Instr.sgninvDecimal (vBit (R2.enc 0x31#7 0x19#7 v 0#2 o)) (R2.dec (R2.enc 0x31#7 0x19#7 v 0#2 o))) = _
  simp only [R2.enc_dec, R2.enc_vBit, R2.enc_opt]
theorem Laws.RoundTrip.sgnandDecimal (v : Bool) (o : R2) : Laws.RoundTrip.Statement (.sgnandDecimal v o) := by
  intro _
  show decode (R2.enc 0x31#7 0x1a#7 v 0#2 o) = _
  rw [decode_arm (R2.enc_root ..) (R2.enc_vBit ..), R2.enc_func]
  show Except.ok (Instr.sgnandDecimal (vBit (R2.enc 0x31#7 0x1a#7 v 0#2 o)) (R2.dec (R2.enc 0x31#7 0x1a#7 v 0#2 o))) = _
  simp only [R2.enc_dec, R2.enc_vBit, R2.enc_opt]
theorem Laws.RoundTrip.sgnorDecimal (v : Bool) (o : R2) : Laws.RoundTrip.Statement (.sgnorDecimal v o) := by
  intro _
  show decode (R2.enc 0x31#7 0x1b#7 v 0#2 o) = _
  rw [decode_arm (R2.enc_root ..) (R2.enc_vBit ..), R2.enc_func]
  show Except.ok (Instr.sgnorDecimal (vBit (R2.enc 0x31#7 0x1b#7 v 0#2 o)) (R2.dec (R2.enc 0x31#7 0x1b#7 v 0#2 o))) = _
  simp only [R2.enc_dec, R2.enc_vBit, R2.enc_opt]
theorem Laws.RoundTrip.sgnxorDecimal (v : Bool) (o : R2) : Laws.RoundTrip.Statement (.sgnxorDecimal v o) := by
  intro _
  show decode (R2.enc 0x31#7 0x1c#7 v 0#2 o) = _
  rw [decode_arm (R2.enc_root ..) (R2.enc_vBit ..), R2.enc_func]
  show Except.ok (Instr.sgnxorDecimal (vBit (R2.enc 0x31#7 0x1c#7 v 0#2 o)) (R2.dec (R2.enc 0x31#7 0x1c#7 v 0#2 o))) = _
  simp only [R2.enc_dec, R2.enc_vBit, R2.enc_opt]
theorem Laws.RoundTrip.sgnxnorDecimal (v : Bool) (o : R2) : Laws.RoundTrip.Statement (.sgnxnorDecimal v o) := by
  intro _
  show decode (R2.enc 0x31#7 0x1d#7 v 0#2 o) = _
  rw [decode_arm (R2.enc_root ..) (R2.enc_vBit ..), R2.enc_func]
  show Except.ok (Instr.sgnxnorDecimal (vBit (R2.enc 0x31#7 0x1d#7 v 0#2 o)) (R2.dec (R2.enc 0x31#7 0x1d#7 v 0#2 o))) = _
  simp only [R2.enc_dec, R2.enc_vBit, R2.enc_opt]
theorem Laws.RoundTrip.fclassDecimal (v : Bool) (o : R2) : Laws.RoundTrip.Statement (.fclassDecimal v o) := by
  intro _
  show decode (R2.enc 0x31#7 0x1e#7 v 0#2 o) = _
  rw [decode_arm (R2.enc_root ..) (R2.enc_vBit ..), R2.enc_func]
  show Except.ok (Instr.fclassDecimal (vBit (R2.enc 0x31#7 0x1e#7 v 0#2 o)) (R2.dec (R2.enc 0x31#7 0x1e#7 v 0#2 o))) = _
  simp only [R2.enc_dec, R2.enc_vBit, R2.enc_opt]
theorem Laws.RoundTrip.loadFunc4Is13At64h (o : LdD) : Laws.RoundTrip.Statement (.loadFunc4Is13At64h o) := by
  intro _
  show decode (LdD.enc 0x64#7 false 0xd#4 o) = _
  rw [decode_arm (LdD.enc_root ..) (LdD.enc_vBit ..), LdD.enc_func4]
  show Except.ok (Instr.loadFunc4Is13At64h (LdD.dec (LdD.enc 0x64#7 false 0xd#4 o))) = _
  simp only [LdD.enc_dec, LdD.enc_f4]
theorem Laws.RoundTrip.loadFunc4Is13At65h (o : LdX) : Laws.RoundTrip.Statement (.loadFunc4Is13At65h o) := by
  intro _
  show decode (LdX.enc 0x65#7 0xd#4 o) = _
  rw [decode_arm (LdX.enc_root ..) (LdX.enc_vBit ..), LdX.enc_func4]
  show Except.ok (Instr.loadFunc4Is13At65h (LdX.dec (LdX.enc 0x65#7 0xd#4 o))) = _
  simp only [LdX.enc_dec]
theorem Laws.RoundTrip.c74hReserved : Laws.RoundTrip.Statement .c74hReserved := by
  intro _
  show decode (word20 0x004#12 0x74#8) = _
  rw [decode_arm (word20_root _ _) (word20_vBit _ _)]
  rfl

end Sys2Proof
end

