-- ==== Sys2Proof/Laws/Rounding.lean ====
section
/-! SUPPORT. One rounding to the nearest binary64 number, ties to even: what `roundShift` and `fpRound` give,
for an exact value and for one with a part below the last bit (42 R341, R342; log 25). -/

namespace Sys2Proof.Machine


theorem fpMagUnits_of (Q r : Nat) (h1 : r ≤ 2 ^ 53) (h2 : 0 < Q → 2 ^ 52 ≤ r) :
    fpMagUnits (Q * 2 ^ 52 + r) = r * 2 ^ Q := by
  unfold fpMagUnits
  by_cases hr : r < 2 ^ 52
  · have hQ : Q = 0 := by omega
    subst hQ
    rw [if_pos (by omega)]; omega
  · by_cases hr2 : r = 2 ^ 53
    · subst hr2
      have a : (Q * 2 ^ 52 + 2 ^ 53) / 2 ^ 52 = Q + 2 := by omega
      have b : (Q * 2 ^ 52 + 2 ^ 53) % 2 ^ 52 = 0 := by omega
      rw [a, b, if_neg (by omega)]
      rw [show Q + 2 - 1 = Q + 1 by omega, pow_succ 2 Q]; ring
    · have a : (Q * 2 ^ 52 + r) / 2 ^ 52 = Q + 1 := by omega
      have b : (Q * 2 ^ 52 + r) % 2 ^ 52 = r - 2 ^ 52 := by omega
      rw [a, b, if_neg (by omega), show Q + 1 - 1 = Q by omega, show 2 ^ 52 + (r - 2 ^ 52) = r by omega]

/-- Every magnitude is a multiple of 2^Q or lies below 2^52 * 2^Q. -/
theorem fpMagUnits_grid (Q n : Nat) :
    (∃ k : Nat, fpMagUnits n = k * 2 ^ Q) ∨ (0 < Q ∧ fpMagUnits n < 2 ^ 52 * 2 ^ Q) := by
  by_cases h : n / 2 ^ 52 ≤ Q
  · rcases Nat.eq_zero_or_pos Q with hQ | hQ
    · exact .inl ⟨fpMagUnits n, by subst hQ; simp⟩
    · right
      refine ⟨hQ, ?_⟩
      have : n < Q * 2 ^ 52 + 2 ^ 52 := by omega
      have := fpMagUnits_lt this
      rwa [fpMagUnits_of Q (2 ^ 52) (by omega) (by omega)] at this
  · left
    unfold fpMagUnits
    rw [if_neg (by omega)]
    refine ⟨(2 ^ 52 + n % 2 ^ 52) * 2 ^ (n / 2 ^ 52 - 1 - Q), ?_⟩
    rw [mul_assoc, ← pow_add]; congr 2; omega

/-- A nearest integer is at least as near as any other, and a tie between two is even. -/
theorem nearest_int (r : ℤ) (v : ℝ) (h : |(r : ℝ) - v| ≤ 1 / 2) (he : |(r : ℝ) - v| = 1 / 2 → r % 2 = 0) (k : ℤ) :
    |(r : ℝ) - v| ≤ |(k : ℝ) - v| ∧ (|(r : ℝ) - v| = |(k : ℝ) - v| → k ≠ r → r % 2 = 0) := by
  by_cases hk : k = r
  · subst hk; exact ⟨le_rfl, fun _ h => absurd rfl h⟩
  · have h1 : (1 : ℝ) ≤ |(k : ℝ) - r| := by
      have : (1 : ℤ) ≤ |k - r| := Int.one_le_abs (sub_ne_zero.2 hk)
      exact_mod_cast this
    have h2 : |(k : ℝ) - r| ≤ |(k : ℝ) - v| + |(r : ℝ) - v| := by
      have := abs_sub_le (k : ℝ) v r
      rwa [abs_sub_comm v (r : ℝ)] at this
    constructor
    · linarith
    · intro e _
      exact he (by linarith)

/-- The nearest magnitude, for a value `v * 2^Q` in units of 2^-1074. -/
theorem nearest_mag (Q r : Nat) (v : ℝ) (h0 : 0 ≤ v) (hlo : 0 < Q → 2 ^ 52 ≤ v) (hhi : v < 2 ^ 53)
    (hr : |(r : ℝ) - v| ≤ 1 / 2) (he : |(r : ℝ) - v| = 1 / 2 → r % 2 = 0) (n : Nat)
    (hn : n ≤ 2047 * 2 ^ 52) :
    let res := min (2047 * 2 ^ 52) (Q * 2 ^ 52 + r)
    |(fpMagUnits res : ℝ) - v * 2 ^ Q| ≤ |(fpMagUnits n : ℝ) - v * 2 ^ Q| ∧
      (|(fpMagUnits res : ℝ) - v * 2 ^ Q| = |(fpMagUnits n : ℝ) - v * 2 ^ Q| →
        fpMagUnits n ≠ fpMagUnits res → res % 2 = 0) := by
  have hP : (0 : ℝ) < 2 ^ Q := by positivity
  have hr1 : r ≤ 2 ^ 53 := by
    have := (abs_le.1 hr).2
    have : (r : ℝ) < ((2 ^ 53 + 1 : Nat) : ℝ) := by push_cast; linarith
    have := Nat.cast_lt.1 this
    omega
  have hr2 : 0 < Q → 2 ^ 52 ≤ r := by
    intro hQ
    have := (abs_le.1 hr).1
    have := hlo hQ
    have : ((2 ^ 52 : Nat) : ℝ) < ((r + 1 : Nat) : ℝ) := by push_cast; linarith
    have := Nat.cast_lt.1 this
    omega
  intro res
  by_cases hbig : Q * 2 ^ 52 + r ≤ 2047 * 2 ^ 52
  · have hres : res = Q * 2 ^ 52 + r := by simp only [res]; omega
    rw [hres, fpMagUnits_of Q r hr1 hr2]
    have hdist : ∀ y : ℝ, |y * 2 ^ Q - v * 2 ^ Q| = |y - v| * 2 ^ Q := by
      intro y; rw [← sub_mul, abs_mul, abs_of_pos hP]
    have hri : |((r : ℤ) : ℝ) - v| ≤ 1 / 2 := by exact_mod_cast hr
    have hei : |((r : ℤ) : ℝ) - v| = 1 / 2 → (r : ℤ) % 2 = 0 := by
      intro h
      have := he (by exact_mod_cast h)
      omega
    have hcast : ((r * 2 ^ Q : Nat) : ℝ) = (r : ℝ) * 2 ^ Q := by push_cast; ring
    rw [hcast, hdist]
    rcases fpMagUnits_grid Q n with ⟨k, hk⟩ | ⟨hQ, hlt⟩
    · have hkc : ((fpMagUnits n : Nat) : ℝ) = (k : ℝ) * 2 ^ Q := by rw [hk]; push_cast; ring
      rw [hkc, hdist]
      obtain ⟨a, b⟩ := nearest_int r v hri hei k
      simp only [Int.cast_natCast] at a b
      refine ⟨mul_le_mul_of_nonneg_right a hP.le, fun e hne => ?_⟩
      have := b (mul_right_cancel₀ hP.ne' e) (by
        intro h
        have : k = r := by exact_mod_cast h
        subst this
        exact hne (hk.trans rfl))
      have hr0 : r % 2 = 0 := by omega
      omega
    · obtain ⟨a, -⟩ := nearest_int r v hri hei (2 ^ 52)
      have hv := hlo hQ
      have h1 : |(((2 ^ 52 : ℤ)) : ℝ) - v| = v - 2 ^ 52 := by
        rw [abs_of_nonpos (by push_cast; linarith)]; push_cast; ring
      rw [h1] at a
      simp only [Int.cast_natCast] at a
      have h2 : (fpMagUnits n : ℝ) < 2 ^ 52 * 2 ^ Q := by exact_mod_cast hlt
      have h3 : |(fpMagUnits n : ℝ) - v * 2 ^ Q| = v * 2 ^ Q - fpMagUnits n := by
        rw [abs_of_nonpos]
        · ring
        · nlinarith
      rw [h3]
      have h4 : |(r : ℝ) - v| * 2 ^ Q ≤ (v - 2 ^ 52) * 2 ^ Q := mul_le_mul_of_nonneg_right a hP.le
      constructor
      · nlinarith
      · intro e; exfalso; nlinarith
  · have hres : res = 2047 * 2 ^ 52 := by simp only [res]; omega
    have hW : fpMagUnits (2047 * 2 ^ 52) = 2 ^ 52 * 2 ^ 2046 := by
      have := fpMagUnits_of 2046 (2 ^ 52) (by omega) (by omega)
      rw [show 2046 * 2 ^ 52 + 2 ^ 52 = 2047 * 2 ^ 52 by omega] at this
      exact this
    have hle : fpMagUnits n ≤ fpMagUnits (2047 * 2 ^ 52) := by
      rcases hn.eq_or_lt with h | h
      · rw [h]
      · exact (fpMagUnits_lt h).le
    have hQ : 2046 ≤ Q := by omega
    have hV : ((fpMagUnits (2047 * 2 ^ 52) : Nat) : ℝ) ≤ v * 2 ^ Q := by
      rw [hW, Nat.cast_mul, Nat.cast_pow, Nat.cast_pow, Nat.cast_ofNat]
      have hv := hlo (by omega)
      have : (2 : ℝ) ^ 2046 ≤ 2 ^ Q := pow_le_pow_right₀ (by norm_num) hQ
      exact mul_le_mul hv this (by positivity) h0
    have hlec : (fpMagUnits n : ℝ) ≤ (fpMagUnits (2047 * 2 ^ 52) : Nat) := by exact_mod_cast hle
    rw [hres]
    refine ⟨?_, fun _ _ => by omega⟩
    rw [abs_of_nonpos (by linarith), abs_of_nonpos (by linarith)]
    linarith

/-- The integer `roundShift` gives in the nearest-even mode. -/
theorem roundShift_nearest (neg : Bool) (m sh : Nat) (sticky : Bool) (t : ℝ) (ht0 : 0 ≤ t) (ht1 : t < 1)
    (hst : sticky = true ↔ t ≠ 0) (hsh : sticky = true → 1 ≤ sh) :
    |(roundShift .nearestEven neg m sh sticky : ℝ) - (m + t) / 2 ^ sh| ≤ 1 / 2 ∧
      (|(roundShift .nearestEven neg m sh sticky : ℝ) - (m + t) / 2 ^ sh| = 1 / 2 →
        roundShift .nearestEven neg m sh sticky % 2 = 0) := by
  have hP : (0 : ℝ) < 2 ^ sh := by positivity
  have hdm := Nat.div_add_mod m (2 ^ sh)
  have hmod : m % 2 ^ sh < 2 ^ sh := Nat.mod_lt _ (by positivity)
  set q := m / 2 ^ sh with hq
  set f := m % 2 ^ sh with hf
  have hval : ((m : ℝ) + t) / 2 ^ sh = q + (f + t) / 2 ^ sh := by
    have : (m : ℝ) = 2 ^ sh * q + f := by exact_mod_cast hdm.symm
    rw [this]; field_simp; ring
  rw [hval]
  have hdef : roundShift .nearestEven neg m sh sticky =
      if 2 ^ sh < 2 * f ∨ (2 * f = 2 ^ sh ∧ (sticky = true ∨ q % 2 = 1)) then q + 1 else q := by
    unfold roundShift
    simp only [← hq, ← hf, Bool.or_eq_true, Bool.and_eq_true, decide_eq_true_iff, beq_iff_eq]
  rw [hdef]
  have key : ∀ y : ℝ, y / 2 ^ sh ≤ 1 / 2 ↔ 2 * y ≤ 2 ^ sh := by
    intro y; rw [div_le_div_iff₀ hP (by norm_num)]; constructor <;> intro h <;> linarith
  by_cases hup : 2 ^ sh < 2 * f ∨ (2 * f = 2 ^ sh ∧ (sticky = true ∨ q % 2 = 1))
  · rw [if_pos hup]
    have hup1 : 2 ^ sh ≤ 2 * f := by rcases hup with h | h <;> omega
    have hup1' : (2 : ℝ) ^ sh ≤ 2 * f := by exact_mod_cast hup1
    have hlt : (f : ℝ) + t < 2 ^ sh := by
      have : (f : ℝ) + 1 ≤ 2 ^ sh := by exact_mod_cast hmod
      linarith
    have hd : (((q + 1 : Nat) : ℝ) - (q + (f + t) / 2 ^ sh)) = (2 ^ sh - (f + t)) / 2 ^ sh := by
      push_cast; field_simp; ring
    rw [hd, abs_of_nonneg (by apply div_nonneg <;> linarith)]
    refine ⟨(key _).2 (by linarith), fun e => ?_⟩
    rw [div_eq_div_iff hP.ne' (by norm_num)] at e
    have e' : (2 : ℝ) * (f + t) = 2 ^ sh := by linarith
    have h2f : (2 * f : ℝ) = 2 ^ sh := by linarith
    have h2f' : 2 * f = 2 ^ sh := by exact_mod_cast h2f
    have ht : t = 0 := by linarith
    have hs : ¬sticky = true := by rw [hst]; simp [ht]
    rcases hup with h | ⟨-, h | h⟩
    · omega
    · exact absurd h hs
    · omega
  · rw [if_neg hup]
    push Not at hup
    have hd : ((q : ℝ) - (q + (f + t) / 2 ^ sh)) = -((f + t) / 2 ^ sh) := by ring
    rw [hd, abs_neg, abs_of_nonneg (by positivity)]
    have hle : 2 * ((f : ℝ) + t) ≤ 2 ^ sh := by
      rcases hup.1.eq_or_lt with h | h
      · have := (hup.2 h).1
        have ht : t = 0 := by by_contra hc; exact this (hst.2 hc)
        rw [ht, add_zero]; exact_mod_cast h.le
      · by_cases hs : sticky = true
        · obtain ⟨j, hj⟩ : ∃ j, 2 ^ sh = 2 * j := ⟨2 ^ (sh - 1), by
            rw [← pow_succ']; congr 1; have := hsh hs; omega⟩
          have : 2 * f + 2 ≤ 2 ^ sh := by omega
          have : (2 * f + 2 : ℝ) ≤ 2 ^ sh := by exact_mod_cast this
          linarith
        · have ht : t = 0 := by by_contra hc; exact hs (hst.2 hc)
          rw [ht, add_zero]; exact_mod_cast h.le
    refine ⟨(key _).2 hle, fun e => ?_⟩
    rw [div_eq_div_iff hP.ne' (by norm_num)] at e
    have e' : (2 : ℝ) * (f + t) = 2 ^ sh := by linarith
    rcases hup.1.eq_or_lt with h | h
    · have := (hup.2 h).2
      omega
    · exfalso
      by_cases hs : sticky = true
      · obtain ⟨j, hj⟩ : ∃ j, 2 ^ sh = 2 * j := ⟨2 ^ (sh - 1), by
          rw [← pow_succ']; congr 1; have := hsh hs; omega⟩
        have : 2 * f + 2 ≤ 2 ^ sh := by omega
        have : (2 * f + 2 : ℝ) ≤ 2 ^ sh := by exact_mod_cast this
        linarith
      · have ht : t = 0 := by by_contra hc; exact hs (hst.2 hc)
        have : (2 * f : ℝ) < 2 ^ sh := by exact_mod_cast h
        linarith

/-- Rounding in the nearest-even mode, of the value `(m + t) * 2^e`: the magnitude of the result. -/
theorem fpRound_magnitude (neg : Bool) (m : Nat) (e : Int) (sticky : Bool) (t : ℝ) (ht0 : 0 ≤ t) (ht1 : t < 1)
    (hst : sticky = true ↔ t ≠ 0) (hbits : sticky = true → 2 ^ 54 ≤ m) :
    ∃ res : Nat, res ≤ 2047 * 2 ^ 52 ∧ fpRound .nearestEven neg m e sticky = fpPack neg res ∧
      ∀ n ≤ 2047 * 2 ^ 52,
        |(fpMagUnits res : ℝ) - (m + t) * 2 ^ (e + 1074)| ≤ |(fpMagUnits n : ℝ) - (m + t) * 2 ^ (e + 1074)| ∧
          (|(fpMagUnits res : ℝ) - (m + t) * 2 ^ (e + 1074)| = |(fpMagUnits n : ℝ) - (m + t) * 2 ^ (e + 1074)| →
            fpMagUnits n ≠ fpMagUnits res → res % 2 = 0) := by
  by_cases hm : m = 0
  · subst hm
    have ht : t = 0 := by
      by_contra hc
      have := hbits (hst.2 hc)
      omega
    refine ⟨0, by omega, by simp [fpRound], fun n _ => ?_⟩
    have h0 : fpMagUnits 0 = 0 := rfl
    rw [h0, ht]
    simp
  · have hL1 : 2 ^ Nat.log2 m ≤ m := (Nat.le_log2 hm).1 le_rfl
    have hL2 : m < 2 ^ (Nat.log2 m + 1) := (Nat.log2_lt hm).1 (Nat.lt_succ_self _)
    set L := Nat.log2 m with hL
    set q : Int := max (e + (L : Int) - 52) (-1074) with hq
    have hqQ : ((q + 1074).toNat : Int) = q + 1074 := by omega
    set Q := (q + 1074).toNat with hQ
    set r : Nat := if q ≤ e then m * 2 ^ (e - q).toNat else roundShift .nearestEven neg m (q - e).toNat sticky with hr
    set v : ℝ := (m + t) * 2 ^ (e - q) with hv
    have hvV : (m + t) * (2 : ℝ) ^ (e + 1074) = v * 2 ^ Q := by
      rw [hv, mul_assoc, ← zpow_natCast (2 : ℝ) Q, ← zpow_add₀ (by norm_num), hqQ]
      congr 2; ring
    have hm0 : (0 : ℝ) ≤ m + t := by positivity
    have h0 : 0 ≤ v := by positivity
    have hhi : v < 2 ^ 53 := by
      have h1 : (m : ℝ) + t < 2 ^ (L + 1) := by
        have : (m : ℝ) + 1 ≤ 2 ^ (L + 1) := by exact_mod_cast hL2
        linarith
      have h2 : (2 : ℝ) ^ (e - q) ≤ 2 ^ (52 - (L : Int)) := zpow_le_zpow_right₀ (by norm_num) (by omega)
      calc v ≤ (m + t) * 2 ^ (52 - (L : Int)) := mul_le_mul_of_nonneg_left h2 hm0
        _ < 2 ^ (L + 1) * 2 ^ (52 - (L : Int)) := mul_lt_mul_of_pos_right h1 (by positivity)
        _ = 2 ^ 53 := by
          rw [← zpow_natCast (2 : ℝ) (L + 1), ← zpow_add₀ (by norm_num), ← zpow_natCast (2 : ℝ) 53]
          congr 1; push_cast; ring
    have hlo : 0 < Q → 2 ^ 52 ≤ v := by
      intro hpos
      have hqe : e - q = 52 - (L : Int) := by omega
      have h1 : (2 : ℝ) ^ L ≤ m + t := by
        have : (2 : ℝ) ^ L ≤ m := by exact_mod_cast hL1
        linarith
      calc (2 : ℝ) ^ 52 = 2 ^ L * 2 ^ (52 - (L : Int)) := by
            rw [← zpow_natCast (2 : ℝ) L, ← zpow_add₀ (by norm_num), ← zpow_natCast (2 : ℝ) 52]
            congr 1; push_cast; ring
        _ ≤ (m + t) * 2 ^ (52 - (L : Int)) := mul_le_mul_of_nonneg_right h1 (by positivity)
        _ = v := by rw [hv, hqe]
    have hnear : |(r : ℝ) - v| ≤ 1 / 2 ∧ (|(r : ℝ) - v| = 1 / 2 → r % 2 = 0) := by
      by_cases hqe : q ≤ e
      · have hs : ¬sticky = true := by
          intro hs
          have h54 := hbits hs
          have : 54 ≤ L := (Nat.le_log2 hm).2 h54
          omega
        have ht : t = 0 := by by_contra hc; exact hs (hst.2 hc)
        have : (r : ℝ) = v := by
          rw [hr, if_pos hqe, hv, ht, add_zero]
          push_cast
          rw [← zpow_natCast (2 : ℝ) (e - q).toNat]
          congr 2; omega
        rw [this, sub_self, abs_zero]
        norm_num
      · have hrr : r = roundShift .nearestEven neg m (q - e).toNat sticky := by rw [hr, if_neg hqe]
        have hvv : v = (m + t) / 2 ^ (q - e).toNat := by
          rw [hv, div_eq_mul_inv, ← zpow_natCast (2 : ℝ) (q - e).toNat, ← zpow_neg]
          congr 2; omega
        rw [hrr, hvv]
        exact roundShift_nearest neg m _ sticky t ht0 ht1 hst (fun _ => by omega)
    refine ⟨min (2047 * 2 ^ 52) (Q * 2 ^ 52 + r), by omega, ?_, fun n hn => ?_⟩
    · have : fpRound .nearestEven neg m e sticky =
          if 0x7ff0000000000000 ≤ Q * 2 ^ 52 + r then fpInf neg else fpPack neg (Q * 2 ^ 52 + r) := by
        unfold fpRound
        rw [if_neg hm]
        simp only [Bool.false_eq_true, if_false]
        rfl
      rw [this]
      split
      · rw [fpInf]; congr 1; omega
      · congr 1; omega
    · rw [hvV]
      exact nearest_mag Q r v h0 hlo hhi hnear.1 hnear.2 n hn

theorem fpUnits_eq (a : Word) :
    fpUnits a = if a.getLsbD 63 then -(fpMagUnits (fpMag a) : Int) else fpMagUnits (fpMag a) := by
  obtain ⟨h1, h2, h3⟩ := fpMag_fields a
  have hd : fpMag a / 2 ^ 52 = (a.extractLsb' 52 11).toNat := by rw [h1]; omega
  have hm : fpMag a % 2 ^ 52 = (a.extractLsb' 0 52).toNat := by rw [h1]; omega
  unfold fpUnits fpMagUnits
  rw [hd, hm]
  dsimp only
  congr 1 <;> split <;> simp

theorem fpNanPattern_iff (a : Word) : fpNanPattern a ↔ 2047 * 2 ^ 52 < fpMag a := by
  have := fpIsNan_iff a
  unfold fpNanPattern
  rw [← this, fpIsNan, decide_eq_true_iff]
  norm_num

theorem fpMag_pack (neg : Bool) (mag : Nat) (h : mag < 2 ^ 63) : fpMag (fpPack neg mag) = mag := by
  unfold fpMag fpPack
  have : (BitVec.ofBool neg ++ BitVec.ofNat 63 mag : BitVec 64).extractLsb' 0 63 = BitVec.ofNat 63 mag := by
    apply BitVec.eq_of_getLsbD_eq
    intro i hi
    rw [BitVec.getLsbD_extractLsb']
    have := getLsbD_sign (BitVec.ofBool neg) (BitVec.ofNat 63 mag) i
    simp only [Nat.zero_add]
    rw [this]
    simp [hi]
  rw [this, BitVec.toNat_ofNat, Nat.mod_eq_of_lt h]

theorem sign_pack (neg : Bool) (mag : Nat) : (fpPack neg mag).getLsbD 63 = neg := by
  have := getLsbD_sign (BitVec.ofBool neg) (BitVec.ofNat 63 mag) 63
  rw [fpPack, this]
  simp

theorem fpUnits_pack (neg : Bool) (mag : Nat) (h : mag < 2 ^ 63) :
    fpUnits (fpPack neg mag) = if neg then -(fpMagUnits mag : Int) else fpMagUnits mag := by
  rw [fpUnits_eq, sign_pack, fpMag_pack neg mag h]

theorem fpMag_parity (a : Word) : a.getLsbD 0 = decide (fpMag a % 2 = 1) := by
  have h : fpMag a % 2 = a.toNat % 2 := by
    unfold fpMag
    have := a.isLt
    simp only [BitVec.extractLsb'_toNat, Nat.shiftRight_eq_div_pow]
    omega
  rw [h, BitVec.getLsbD, Nat.testBit_zero]

/-- The result of a rounding in the nearest-even mode of `±(m + t) * 2^e`, whose value is `k / d` units. -/
theorem fpRound_rounded (neg : Bool) (m : Nat) (e : Int) (sticky : Bool) (t : ℝ) (ht0 : 0 ≤ t) (ht1 : t < 1)
    (hst : sticky = true ↔ t ≠ 0) (hbits : sticky = true → 2 ^ 54 ≤ m) (k d : Int) (hd : d ≠ 0)
    (hk : (k : ℝ) = d * ((if neg then -1 else 1) * ((m + t) * 2 ^ (e + 1074)))) :
    RoundedTo (fpRound .nearestEven neg m e sticky) k d ∧
      (fpRound .nearestEven neg m e sticky).getLsbD 63 = neg := by
  obtain ⟨res, hres, hw, hnear⟩ := fpRound_magnitude neg m e sticky t ht0 ht1 hst hbits
  rw [hw]
  set V : ℝ := (m + t) * 2 ^ (e + 1074) with hV
  have hV0 : 0 ≤ V := by positivity
  have hmag := fpMag_pack neg res (by omega)
  refine ⟨⟨?_, fun c hc => ?_⟩, sign_pack neg res⟩
  · rw [fpNanPattern_iff, hmag]; omega
  · rw [fpNanPattern_iff] at hc
    have hdpos : (0 : ℝ) < |(d : ℝ)| := abs_pos.2 (by exact_mod_cast hd)
    have hdist : ∀ x : Int, ((|x * d - k| : Int) : ℝ) =
        |(d : ℝ)| * |(if neg then -1 else 1) * (x : ℝ) - V| := by
      intro x
      push_cast
      rw [hk, ← abs_mul]
      cases neg
      · simp only [Bool.false_eq_true, if_false, one_mul]; congr 1; ring
      · simp only [if_true]; rw [← abs_neg]; congr 1; ring
    have hwu : (if neg then -1 else 1) * ((fpUnits (fpPack neg res) : Int) : ℝ) = (fpMagUnits res : ℝ) := by
      rw [fpUnits_pack neg res (by omega)]
      cases neg <;> simp
    have main : |(fpMagUnits res : ℝ) - V| ≤ |(if neg then -1 else 1) * ((fpUnits c : Int) : ℝ) - V| ∧
        (|(fpMagUnits res : ℝ) - V| = |(if neg then -1 else 1) * ((fpUnits c : Int) : ℝ) - V| →
          fpUnits c ≠ fpUnits (fpPack neg res) → res % 2 = 0) := by
      rw [fpUnits_pack neg res (by omega), fpUnits_eq c]
      obtain ⟨h1, h2⟩ := hnear (fpMag c) (by omega)
      by_cases hs : c.getLsbD 63 = neg
      · rw [hs]
        cases neg
        · simp only [Bool.false_eq_true, if_false, one_mul]
          push_cast
          exact ⟨h1, fun h hne => h2 h (fun e => hne (by exact_mod_cast e))⟩
        · simp only [if_true]
          push_cast
          rw [neg_one_mul, neg_neg]
          exact ⟨h1, fun h hne => h2 h (fun e => hne (by rw [e]))⟩
      · obtain ⟨h3, h4⟩ := hnear 0 (by omega)
        rw [show fpMagUnits 0 = 0 from rfl, Nat.cast_zero, zero_sub, abs_neg, abs_of_nonneg hV0] at h3 h4
        have hopp : |(if neg then -1 else 1) *
            (((if c.getLsbD 63 then -(fpMagUnits (fpMag c) : Int) else fpMagUnits (fpMag c)) : Int) : ℝ) - V| =
              fpMagUnits (fpMag c) + V := by
          have h0 : (0 : ℝ) ≤ fpMagUnits (fpMag c) := Nat.cast_nonneg _
          cases neg
          · have : c.getLsbD 63 = true := by simpa using hs
            rw [this]
            simp only [if_true, Bool.false_eq_true, if_false, one_mul]
            push_cast
            rw [abs_of_nonpos (by linarith)]; ring
          · have : c.getLsbD 63 = false := by simpa using hs
            rw [this]
            simp only [if_true, Bool.false_eq_true, if_false]
            push_cast
            rw [abs_of_nonpos (by linarith)]; ring
        rw [hopp]
        have h0 : (0 : ℝ) ≤ fpMagUnits (fpMag c) := Nat.cast_nonneg _
        refine ⟨by linarith, fun h hne => h4 (by linarith) ?_⟩
        intro e
        have hz : (fpMagUnits (fpMag c) : ℝ) = 0 := by linarith
        have hz' : fpMagUnits (fpMag c) = 0 := by exact_mod_cast hz
        apply hne
        rw [hz', ← e]
        cases neg <;> cases c.getLsbD 63 <;> simp
    constructor
    · have : ((|fpUnits (fpPack neg res) * d - k| : Int) : ℝ) ≤ ((|fpUnits c * d - k| : Int) : ℝ) := by
        rw [hdist, hdist, hwu]
        exact mul_le_mul_of_nonneg_left main.1 hdpos.le
      exact_mod_cast this
    · intro h hne
      have h' : ((|fpUnits (fpPack neg res) * d - k| : Int) : ℝ) = ((|fpUnits c * d - k| : Int) : ℝ) := by
        rw [h]
      rw [hdist, hdist, hwu] at h'
      have := main.2 (mul_left_cancel₀ hdpos.ne' h') hne
      rw [fpMag_parity, hmag]
      simp [this]

/-- The unpacked form of a finite number. -/
theorem fpUnpack_finite (a : Word) (h : fpFinitePattern a) :
    ∃ m e, fpUnpack a = .fin (a.getLsbD 63) m e ∧ -1074 ≤ e ∧
      fpUnits a = (if a.getLsbD 63 then -1 else 1) * (m * 2 ^ (e + 1074).toNat : Nat) ∧ m < 2 ^ 53 := by
  have hsign : (a.extractLsb' 63 1 == 1#1) = a.getLsbD 63 := by
    rw [Bool.eq_iff_iff, beq_iff_eq]
    exact ⟨fun h => (getLsbD_63 a).mp h, fun h => (getLsbD_63 a).mpr h⟩
  have he : ¬(a.extractLsb' 52 11).toNat = 2047 := by
    intro hc
    exact h (BitVec.eq_of_toNat_eq (by rw [hc]; rfl))
  have hf := (a.extractLsb' 0 52).isLt
  unfold fpUnpack
  simp only [hsign]
  rw [if_neg he]
  by_cases h0 : (a.extractLsb' 52 11).toNat = 0
  · rw [if_pos h0]
    refine ⟨_, _, rfl, by omega, ?_, by omega⟩
    unfold fpUnits
    simp only [h0, if_true]
    cases a.getLsbD 63 <;> simp
  · rw [if_neg h0]
    refine ⟨_, _, rfl, by omega, ?_, by omega⟩
    unfold fpUnits
    simp only [h0, if_false]
    have : ((a.extractLsb' 52 11).toNat - 1075 + 1074 : Int).toNat = (a.extractLsb' 52 11).toNat - 1 := by omega
    rw [this]
    cases a.getLsbD 63 <;> simp

/-- The sign as a factor. -/
theorem fpUnits_real (a : Word) (m : Nat) (e : Int) (he : -1074 ≤ e)
    (h : fpUnits a = (if a.getLsbD 63 then -1 else 1) * (m * 2 ^ (e + 1074).toNat : Nat)) :
    (fpUnits a : ℝ) = (if a.getLsbD 63 then -1 else 1) * ((m : ℝ) * 2 ^ (e + 1074)) := by
  rw [h]
  push_cast
  rw [← zpow_natCast (2 : ℝ) (e + 1074).toNat, show (((e + 1074).toNat : Nat) : Int) = e + 1074 by omega]

/-- A rounding of an exact value. -/
theorem fpRound_exact (neg : Bool) (m : Nat) (e : Int) (k d : Int) (hd : d ≠ 0)
    (hk : (k : ℝ) = d * ((if neg then -1 else 1) * ((m : ℝ) * 2 ^ (e + 1074)))) :
    RoundedTo (fpRound .nearestEven neg m e false) k d ∧
      (fpRound .nearestEven neg m e false).getLsbD 63 = neg :=
  fpRound_rounded neg m e false 0 le_rfl one_pos (by simp) (by simp) k d hd (by rw [hk, add_zero])

/-- A sum of two finite values, rounded once. -/
theorem fpAddRound_rounded (s t : Bool) (m n : Nat) (e f : Int) (k d : Int) (hd : d ≠ 0)
    (hk : (k : ℝ) = d * ((if s then -1 else 1) * ((m : ℝ) * 2 ^ (e + 1074)) +
      (if t then -1 else 1) * ((n : ℝ) * 2 ^ (f + 1074)))) :
    RoundedTo (fpAddRound .nearestEven (.fin s m e) (.fin t n f)) k d ∧
      (k = 0 → fpAddRound .nearestEven (.fin s m e) (.fin t n f) = fpPack (s && t) 0) := by
  have hscale : ∀ (neg : Bool) (a : Nat) (x : Int), min e f ≤ x →
      ((fpScaled neg a x (min e f) : Int) : ℝ) * 2 ^ (min e f + 1074) =
        (if neg then -1 else 1) * ((a : ℝ) * 2 ^ (x + 1074)) := by
    intro neg a x hx
    have hp : (2 : ℝ) ^ (x + 1074) = 2 ^ (x - min e f).toNat * 2 ^ (min e f + 1074) := by
      rw [← zpow_natCast (2 : ℝ), ← zpow_add₀ (by norm_num)]
      congr 1; omega
    unfold fpScaled
    rw [hp]
    cases neg <;> simp <;> ring
  have h1 := hscale s m e (min_le_left _ _)
  have h2 := hscale t n f (min_le_right _ _)
  rw [← h1, ← h2, ← add_mul] at hk
  set K : Int := fpScaled s m e (min e f) + fpScaled t n f (min e f) with hK
  have hk' : (k : ℝ) = d * ((K : ℝ) * 2 ^ (min e f + 1074)) := by rw [hk, hK]; push_cast; ring
  have hP : (2 : ℝ) ^ (min e f + 1074) ≠ 0 := by positivity
  have hdr : (d : ℝ) ≠ 0 := by exact_mod_cast hd
  have hzero : k = 0 ↔ K = 0 := by
    constructor
    · intro h
      rw [h, Int.cast_zero] at hk'
      have := (mul_eq_zero.1 hk'.symm).resolve_left hdr
      exact_mod_cast (mul_eq_zero.1 this).resolve_right hP
    · intro h
      rw [h, Int.cast_zero, zero_mul, mul_zero] at hk'
      exact_mod_cast hk'
  have hdef : fpAddRound .nearestEven (.fin s m e) (.fin t n f) =
      if K = 0 then (if s = t then fpPack s 0 else fpPack false 0)
      else fpRound .nearestEven (decide (K < 0)) K.natAbs (min e f) false := rfl
  rw [hdef]
  have hpack : (if s = t then fpPack s 0 else fpPack false 0) = fpPack (s && t) 0 := by
    cases s <;> cases t <;> rfl
  constructor
  · by_cases h0 : K = 0
    · rw [if_pos h0, hpack]
      have hr : fpPack (s && t) 0 = fpRound .nearestEven (s && t) 0 0 false := by simp [fpRound]
      rw [hr]
      refine (fpRound_exact (s && t) 0 0 k d hd ?_).1
      rw [(hzero.2 h0)]; simp
    · rw [if_neg h0]
      refine (fpRound_exact _ _ _ k d hd ?_).1
      rw [hk']
      congr 1
      rw [← mul_assoc]
      congr 1
      have : (K : ℝ) = (if K < 0 then -1 else 1) * ((K.natAbs : Nat) : ℝ) := by
        rw [Nat.cast_natAbs]
        split
        · rw [abs_of_neg (by assumption)]; push_cast; ring
        · rw [abs_of_nonneg (by omega)]; ring
      simpa using this
  · intro h
    rw [if_pos (hzero.1 h), hpack]

/-- The product of two finite values. -/
theorem fp_product (a b : Word) (ha : fpFinitePattern a) (hb : fpFinitePattern b) :
    ∃ m e, (fpUnpack a).mul (fpUnpack b) = .fin (a.getLsbD 63 != b.getLsbD 63) m e ∧
      ((fpUnits a * fpUnits b : Int) : ℝ) =
        2 ^ 1074 * ((if a.getLsbD 63 != b.getLsbD 63 then -1 else 1) * ((m : ℝ) * 2 ^ (e + 1074))) := by
  obtain ⟨m, e, h1, h2, h3, -⟩ := fpUnpack_finite a ha
  obtain ⟨n, f, k1, k2, k3, -⟩ := fpUnpack_finite b hb
  refine ⟨m * n, e + f, by rw [h1, k1]; rfl, ?_⟩
  rw [Int.cast_mul, fpUnits_real a m e h2 h3, fpUnits_real b n f k2 k3]
  have : (2 : ℝ) ^ (e + 1074) * 2 ^ (f + 1074) = 2 ^ 1074 * 2 ^ (e + f + 1074) := by
    rw [← zpow_natCast (2 : ℝ) 1074, ← zpow_add₀ (by norm_num), ← zpow_add₀ (by norm_num)]
    congr 1; push_cast; ring
  push_cast
  cases a.getLsbD 63 <;> cases b.getLsbD 63 <;> simp <;> linear_combination (m * n : ℝ) * this

/-- A square root of a finite number that is not negative: `w` is a nearest magnitude to the root. -/
theorem fpSqrt_rounded (a : Word) (ha : fpFinitePattern a) (hpos : 0 ≤ fpUnits a) :
    let w := fpUnits (fpSqrt .nearestEven a)
    0 ≤ w ∧ ∀ c, ¬fpNanPattern c → 0 ≤ fpUnits c →
      (w < fpUnits c → 4 * (fpUnits a * 2 ^ 1074) ≤ (w + fpUnits c) ^ 2) ∧
      (fpUnits c < w → (w + fpUnits c) ^ 2 ≤ 4 * (fpUnits a * 2 ^ 1074)) := by
  obtain ⟨m, e, h1, h2, h3, hm⟩ := fpUnpack_finite a ha
  have hP : 0 < 2 ^ (e + 1074).toNat := Nat.pow_pos (by norm_num)
  by_cases hm0 : m = 0
  · have hw : fpUnits (fpSqrt .nearestEven a) = 0 := by
      unfold fpSqrt
      rw [h1]
      simp only [if_pos hm0]
      rw [fpUnits_pack _ _ (by norm_num), show fpMagUnits 0 = 0 from rfl]
      simp
    have hA : fpUnits a = 0 := by rw [h3, hm0]; simp
    intro w
    have hw0 : w = 0 := hw
    rw [hw0, hA]
    refine ⟨le_rfl, fun c _ hc => ⟨fun _ => ?_, fun h => absurd h (by omega)⟩⟩
    rw [zero_mul, mul_zero]; positivity
  · have hs : a.getLsbD 63 = false := by
      by_contra hc
      have hc' : a.getLsbD 63 = true := by simpa using hc
      rw [h3, hc', if_pos rfl] at hpos
      have : 0 < m * 2 ^ (e + 1074).toNat := Nat.mul_pos (Nat.pos_of_ne_zero hm0) hP
      omega
    have hreal := fpUnits_real a m e h2 h3
    rw [hs] at hreal
    simp only [Bool.false_eq_true, if_false, one_mul] at hreal
    set k : Nat := if e % 2 = 0 then 116 else 117 with hk
    have hk1 : 116 ≤ k ∧ k ≤ 117 := by rw [hk]; split <;> omega
    have hk2 : 2 * ((e - k) / 2) = e - k := by
      rw [hk]; split <;> push_cast <;> omega
    set x := m * 2 ^ k with hx
    have hxb : x < (0 + 2 ^ 86) * (0 + 2 ^ 86) := by
      calc x ≤ m * 2 ^ 117 := Nat.mul_le_mul_left _ (Nat.pow_le_pow_right (by norm_num) hk1.2)
        _ < 2 ^ 53 * 2 ^ 117 := Nat.mul_lt_mul_of_pos_right hm (by norm_num)
        _ ≤ _ := by norm_num
    have hr : isqrtFrom x 86 0 = Nat.sqrt x := isqrtFrom_eq x 86 0 (by omega) hxb
    set r := Nat.sqrt x with hrd
    have hdef : fpSqrt .nearestEven a = fpRound .nearestEven false r ((e - k) / 2) (r * r != x) := by
      unfold fpSqrt
      rw [h1]
      simp only [if_neg hm0, hs, Bool.false_eq_true, if_false, ← hk, ← hx, hr]
    have hr1 : r * r ≤ x := Nat.sqrt_le x
    have hr2 : x < (r + 1) * (r + 1) := Nat.lt_succ_sqrt x
    have hxr : (Real.sqrt x) ^ 2 = x := Real.sq_sqrt (Nat.cast_nonneg x)
    have hx0 : (0 : ℝ) ≤ Real.sqrt x := Real.sqrt_nonneg _
    have ht0 : (r : ℝ) ≤ Real.sqrt x := Real.le_sqrt_of_sq_le (by
      have : ((r * r : Nat) : ℝ) ≤ x := by exact_mod_cast hr1
      push_cast at this; nlinarith)
    have ht1 : Real.sqrt x < r + 1 := (Real.sqrt_lt' (by positivity)).2 (by
      have : (x : ℝ) < (((r + 1) * (r + 1) : Nat) : ℝ) := by exact_mod_cast hr2
      push_cast at this; nlinarith)
    have hst : (r * r != x) = true ↔ Real.sqrt x - r ≠ 0 := by
      rw [bne_iff_ne, not_iff_not, sub_eq_zero]
      constructor
      · intro h
        rw [← h, Nat.cast_mul, Real.sqrt_mul_self (Nat.cast_nonneg r)]
      · intro h
        rw [h] at hxr
        have : ((r * r : Nat) : ℝ) = x := by push_cast; nlinarith
        exact_mod_cast this
    have hb : (r * r != x) = true → 2 ^ 54 ≤ r := by
      intro _
      rw [hrd, Nat.le_sqrt]
      calc 2 ^ 54 * 2 ^ 54 ≤ 1 * 2 ^ 116 := by norm_num
        _ ≤ m * 2 ^ 116 := Nat.mul_le_mul_right _ (Nat.pos_of_ne_zero hm0)
        _ ≤ x := Nat.mul_le_mul_left _ (Nat.pow_le_pow_right (by norm_num) hk1.1)
    obtain ⟨res, hres, hw, hnear⟩ :=
      fpRound_magnitude false r ((e - k) / 2) (r * r != x) (Real.sqrt x - r) (by linarith) (by linarith) hst hb
    rw [← hdef] at hw
    rw [add_sub_cancel] at hnear
    set V : ℝ := Real.sqrt x * 2 ^ ((e - k) / 2 + 1074) with hV
    have hV0 : 0 ≤ V := by positivity
    have hV2 : V ^ 2 = ((fpUnits a * 2 ^ 1074 : Int) : ℝ) := by
      have hc : ((fpUnits a * 2 ^ 1074 : Int) : ℝ) = (fpUnits a : ℝ) * 2 ^ 1074 := by
        rw [Int.cast_mul, Int.cast_pow, Int.cast_ofNat]
      rw [hc, hV, mul_pow, hxr, hreal, hx, Nat.cast_mul, Nat.cast_pow, Nat.cast_ofNat, mul_assoc, mul_assoc]
      congr 1
      rw [← zpow_natCast ((2 : ℝ) ^ ((e - k) / 2 + 1074)) 2, ← zpow_mul, ← zpow_natCast (2 : ℝ) k,
        ← zpow_natCast (2 : ℝ) 1074, ← zpow_add₀ (by norm_num), ← zpow_add₀ (by norm_num)]
      congr 1
      push_cast
      linarith
    have hwu : fpUnits (fpSqrt .nearestEven a) = fpMagUnits res := by
      rw [hw, fpUnits_pack false res (by omega)]; simp
    intro w
    have hw' : w = fpMagUnits res := hwu
    rw [hw']
    refine ⟨Int.natCast_nonneg _, fun c hc hcp => ?_⟩
    have hcu : fpUnits c = fpMagUnits (fpMag c) := by
      have := fpUnits_eq c
      split at this <;> omega
    rw [fpNanPattern_iff] at hc
    obtain ⟨hn, -⟩ := hnear (fpMag c) (by omega)
    rw [hcu]
    set p := fpMagUnits res
    set q := fpMagUnits (fpMag c)
    have hpq : (0 : ℝ) ≤ p ∧ (0 : ℝ) ≤ q := ⟨Nat.cast_nonneg _, Nat.cast_nonneg _⟩
    constructor
    · intro hlt
      have hlt' : (p : ℝ) < q := by exact_mod_cast hlt
      have h2V : 2 * V ≤ p + q := by
        by_contra hcon
        push Not at hcon
        rw [abs_of_nonpos (by linarith : (p : ℝ) - V ≤ 0)] at hn
        rcases abs_cases ((q : ℝ) - V) with h | h <;> linarith
      have : ((4 * (fpUnits a * 2 ^ 1074) : Int) : ℝ) ≤ (((p + q : Int) ^ 2 : Int) : ℝ) := by
        rw [Int.cast_mul, ← hV2]; push_cast; nlinarith
      exact_mod_cast this
    · intro hlt
      have hlt' : (q : ℝ) < p := by exact_mod_cast hlt
      have h2V : p + q ≤ 2 * V := by
        by_contra hcon
        push Not at hcon
        rw [abs_of_nonneg (by linarith : 0 ≤ (p : ℝ) - V)] at hn
        rcases abs_cases ((q : ℝ) - V) with h | h <;> linarith
      have : (((p + q : Int) ^ 2 : Int) : ℝ) ≤ ((4 * (fpUnits a * 2 ^ 1074) : Int) : ℝ) := by
        rw [Int.cast_mul, ← hV2]; push_cast; nlinarith
      exact_mod_cast this

theorem fpOne_real : (fpOne : ℝ) = 2 ^ 1074 := by
  unfold fpOne
  rw [Int.cast_pow, Int.cast_ofNat]

theorem fpOne_ne : fpOne ≠ 0 := by unfold fpOne; exact pow_ne_zero _ (by norm_num)

theorem neg_sign (s : Bool) (x : ℝ) : (if !s then (-1 : ℝ) else 1) * x = -((if s then -1 else 1) * x) := by
  cases s <;> simp

theorem fp_div_rounded (a b : Word) (ha : fpFinitePattern a) (hb : fpFinitePattern b) (h0 : fpUnits b ≠ 0) :
    RoundedTo (fpDiv .nearestEven a b) (fpUnits a * fpOne) (fpUnits b) ∧
      (fpDiv .nearestEven a b).getLsbD 63 = (a.getLsbD 63 != b.getLsbD 63) := by
  obtain ⟨m, e, h1, h2, h3, hm⟩ := fpUnpack_finite a ha
  obtain ⟨n, f, k1, k2, k3, hn⟩ := fpUnpack_finite b hb
  have hn0 : n ≠ 0 := by rintro rfl; simp at k3; exact h0 k3
  have hdef : fpDiv .nearestEven a b = fpRound .nearestEven (a.getLsbD 63 != b.getLsbD 63) (m * 2 ^ 110 / n)
      (e - f - 110) (m * 2 ^ 110 % n != 0) := by
    unfold fpDiv
    rw [h1, k1]
    simp only [if_neg hn0]
  rw [hdef]
  have hnp : (0 : ℝ) < n := by exact_mod_cast Nat.pos_of_ne_zero hn0
  have hdm := Nat.div_add_mod (m * 2 ^ 110) n
  have hmod : m * 2 ^ 110 % n < n := Nat.mod_lt _ (Nat.pos_of_ne_zero hn0)
  set q := m * 2 ^ 110 / n with hq
  set r := m * 2 ^ 110 % n with hr
  have hqr : ((q : ℝ) + r / n) = m * 2 ^ 110 / n := by
    have : ((n * q + r : Nat) : ℝ) = ((m * 2 ^ 110 : Nat) : ℝ) := by rw [hdm]
    push_cast at this
    field_simp
    linarith
  refine fpRound_rounded _ q _ _ ((r : ℝ) / n) (by positivity) ?_ ?_ ?_ _ _ h0 ?_
  · rw [div_lt_one hnp]; exact_mod_cast hmod
  · simp only [bne_iff_ne, ne_eq, div_eq_zero_iff, Nat.cast_eq_zero, hn0, or_false]
  · intro hs
    have hr0 : r ≠ 0 := by simpa using hs
    have hm0 : m ≠ 0 := by
      rintro rfl
      simp at hr
      exact hr0 hr
    rw [hq, Nat.le_div_iff_mul_le (Nat.pos_of_ne_zero hn0)]
    calc 2 ^ 54 * n ≤ 2 ^ 54 * 2 ^ 53 := Nat.mul_le_mul_left _ hn.le
      _ ≤ 1 * 2 ^ 110 := by norm_num
      _ ≤ m * 2 ^ 110 := Nat.mul_le_mul_right _ (Nat.pos_of_ne_zero hm0)
  · rw [hqr, Int.cast_mul, fpOne_real, fpUnits_real a m e h2 h3, fpUnits_real b n f k2 k3]
    have hp : (2 : ℝ) ^ (e + 1074) * 2 ^ 1074 = 2 ^ (f + 1074) * (2 ^ 110 * 2 ^ (e - f - 110 + 1074)) := by
      rw [← zpow_natCast (2 : ℝ) 1074, ← zpow_natCast (2 : ℝ) 110, ← zpow_add₀ (by norm_num),
        ← zpow_add₀ (by norm_num), ← zpow_add₀ (by norm_num)]
      congr 1; push_cast; ring
    have hfin : (m : ℝ) * 2 ^ (e + 1074) * 2 ^ 1074 =
        n * 2 ^ (f + 1074) * (m * 2 ^ 110 / n * 2 ^ (e - f - 110 + 1074)) := by
      rw [mul_assoc, hp]; field_simp
    cases a.getLsbD 63 <;> cases b.getLsbD 63 <;> simp <;> linear_combination hfin

theorem unpack_nan (a : Word) (h : fpNanPattern a) : fpUnpack a = .nan := by
  unfold fpUnpack
  have h1 : (a.extractLsb' 52 11).toNat = 2047 := by rw [h.1]; rfl
  have h2 : ¬(a.extractLsb' 0 52).toNat = 0 := fun h0 => h.2 (BitVec.eq_of_toNat_eq (by rw [h0]; rfl))
  simp only [h1, if_true, h2, if_false]

theorem unpack_inf (a : Word) (h : ¬fpNanPattern a) (h2 : ¬fpFinitePattern a) :
    fpUnpack a = .inf (a.getLsbD 63) ∧
      fpUnits a = (if a.getLsbD 63 then -1 else 1) * (fpMagUnits (2047 * 2 ^ 52) : Nat) := by
  have h1 : a.extractLsb' 52 11 = 0x7ff#11 := by unfold fpFinitePattern at h2; exact not_not.1 h2
  have h0 : a.extractLsb' 0 52 = 0#52 := by
    by_contra hc; exact h ⟨h1, hc⟩
  have hsign : (a.extractLsb' 63 1 == 1#1) = a.getLsbD 63 := by
    rw [Bool.eq_iff_iff, beq_iff_eq]
    exact ⟨fun h => (getLsbD_63 a).mp h, fun h => (getLsbD_63 a).mpr h⟩
  have e1 : (a.extractLsb' 52 11).toNat = 2047 := by rw [h1]; rfl
  have e0 : (a.extractLsb' 0 52).toNat = 0 := by rw [h0]; rfl
  constructor
  · unfold fpUnpack
    simp only [e1, e0, if_true, hsign]
  · have hm : fpMag a = 2047 * 2 ^ 52 := by
      have := (fpMag_fields a).1
      omega
    rw [fpUnits_eq, hm]
    generalize fpMagUnits (2047 * 2 ^ 52) = W
    cases a.getLsbD 63
    · simp only [Bool.false_eq_true, if_false, one_mul]
    · simp only [if_true, neg_one_mul]

theorem fin_units (a : Word) (m : Nat) (e : Int)
    (h : fpUnits a = (if a.getLsbD 63 then -1 else 1) * (m * 2 ^ (e + 1074).toNat : Nat)) :
    fpUnits a = 0 ↔ m = 0 := by
  rw [h]
  have hP : 2 ^ (e + 1074).toNat ≠ 0 := pow_ne_zero _ (by norm_num)
  cases a.getLsbD 63 <;> simp

theorem sat_toInt (s : Bool) (R : Nat) :
    (if s then (if 2 ^ 63 ≤ R then 1#64 <<< 63 else BitVec.ofInt 64 (-(R : Int)))
      else BitVec.ofNat 64 (min R (2 ^ 63 - 1))).toInt =
      max (-(2 ^ 63)) (min (2 ^ 63 - 1) ((if s then -1 else 1) * (R : Int))) := by
  cases s
  · simp only [Bool.false_eq_true, if_false, one_mul]
    rw [BitVec.toInt_eq_toNat_bmod, BitVec.toNat_ofNat, Int.bmod_def]
    omega
  · simp only [if_true, neg_one_mul]
    split
    · have : (1#64 <<< 63 : Word).toInt = -(2 ^ 63) := by decide
      rw [this]; omega
    · rw [BitVec.toInt_ofInt, Int.bmod_def]
      omega

theorem fpInf_units : ((fpMagUnits (2047 * 2 ^ 52) : Nat) : Int) = 2 ^ 1024 * fpOne := by
  have := fpMagUnits_of 2046 (2 ^ 52) (by omega) (by omega)
  rw [show 2046 * 2 ^ 52 + 2 ^ 52 = 2047 * 2 ^ 52 by omega] at this
  rw [this, fpOne, Nat.cast_mul, Nat.cast_pow, Nat.cast_pow, Nat.cast_ofNat, ← pow_add, ← pow_add]

theorem fpToInt_rounded (a : Word) (h : ¬fpNanPattern a) : ∃ r : Int,
    2 * |r * fpOne - fpUnits a| ≤ fpOne ∧ (2 * |r * fpOne - fpUnits a| = fpOne → r % 2 = 0) ∧
    (fpToInt .nearestEven a).toInt = max (-(2 ^ 63)) (min (2 ^ 63 - 1) r) := by
  have hone : (0 : Int) < fpOne := by unfold fpOne; positivity
  by_cases hf : fpFinitePattern a
  · obtain ⟨m, e, h1, h2, h3, -⟩ := fpUnpack_finite a hf
    set s := a.getLsbD 63
    set R : Nat := if 0 ≤ e then m * 2 ^ e.toNat else roundShift .nearestEven s m (-e).toNat false with hR
    have hdef : fpToInt .nearestEven a =
        if s then (if 2 ^ 63 ≤ R then 1#64 <<< 63 else BitVec.ofInt 64 (-(R : Int)))
        else BitVec.ofNat 64 (min R (2 ^ 63 - 1)) := by
      unfold fpToInt; rw [h1]
    have hu := fpUnits_real a m e h2 h3
    have hnear : |(R : ℝ) - m * 2 ^ e| ≤ 1 / 2 ∧ (|(R : ℝ) - m * 2 ^ e| = 1 / 2 → R % 2 = 0) := by
      by_cases he : 0 ≤ e
      · have : (R : ℝ) = m * 2 ^ e := by
          rw [hR, if_pos he, Nat.cast_mul, Nat.cast_pow, Nat.cast_ofNat, ← zpow_natCast (2 : ℝ)]
          congr 2; omega
        rw [this, sub_self, abs_zero]; norm_num
      · have hd : (m : ℝ) * 2 ^ e = (m + 0) / 2 ^ (-e).toNat := by
          rw [add_zero, div_eq_mul_inv, ← zpow_natCast (2 : ℝ) (-e).toNat, ← zpow_neg]
          congr 2; omega
        rw [hd, hR, if_neg he]
        exact roundShift_nearest s m _ false 0 le_rfl one_pos (by simp) (by simp)
    have hdist : ((|(if s then -1 else 1) * (R : Int) * fpOne - fpUnits a| : Int) : ℝ) =
        fpOne * |(R : ℝ) - m * 2 ^ e| := by
      have hp : (0 : ℝ) < (fpOne : ℝ) := by exact_mod_cast hone
      have h2p : (2 : ℝ) ^ (e + 1074) = 2 ^ e * (fpOne : ℝ) := by
        rw [fpOne_real, ← zpow_natCast (2 : ℝ) 1074, ← zpow_add₀ (by norm_num)]; rfl
      rw [Int.cast_abs, Int.cast_sub, hu, h2p, ← abs_of_pos hp, ← abs_mul, abs_of_pos hp]
      change |_ - (if s = true then (-1 : ℝ) else 1) * _| = _
      cases s
      · simp only [Bool.false_eq_true, if_false]; congr 1; push_cast; ring
      · simp only [if_true]; rw [← abs_neg]; congr 1; push_cast; ring
    refine ⟨(if s then -1 else 1) * (R : Int), ?_, ?_, by rw [hdef, sat_toInt]⟩
    · have : ((2 * |(if s then -1 else 1) * (R : Int) * fpOne - fpUnits a| : Int) : ℝ) ≤ (fpOne : ℝ) := by
        rw [Int.cast_mul, hdist]
        have hp : (0 : ℝ) < (fpOne : ℝ) := by exact_mod_cast hone
        have h4 := mul_le_mul_of_nonneg_left hnear.1 hp.le
        rw [Int.cast_ofNat]
        generalize (fpOne : ℝ) = W at h4 ⊢
        linarith
      exact_mod_cast this
    · intro heq
      have : ((2 * |(if s then -1 else 1) * (R : Int) * fpOne - fpUnits a| : Int) : ℝ) = (fpOne : ℝ) := by
        rw [heq]
      rw [Int.cast_mul, hdist] at this
      have hp : (0 : ℝ) < (fpOne : ℝ) := by exact_mod_cast hone
      have h3 := hnear.2 (by
        push_cast at this
        have : (fpOne : ℝ) * (2 * |(R : ℝ) - m * 2 ^ e| - 1) = 0 := by linarith
        rcases mul_eq_zero.1 this with h | h
        · linarith
        · linarith)
      cases s <;> simp <;> omega
  · obtain ⟨h1, h2⟩ := unpack_inf a h hf
    refine ⟨(if a.getLsbD 63 then -1 else 1) * 2 ^ 1024, ?_, ?_, ?_⟩
    · have hz : (if a.getLsbD 63 then -1 else 1) * 2 ^ 1024 * fpOne - fpUnits a = 0 := by
        rw [h2, fpInf_units, mul_assoc, sub_self]
      rw [hz, abs_zero, mul_zero]; exact hone.le
    · intro _
      have h2 : (2 : Int) ^ 1024 = 2 * 2 ^ 1023 := by rw [← pow_succ']
      rw [h2]
      cases a.getLsbD 63
      · simp only [Bool.false_eq_true, if_false]; omega
      · simp only [if_true]; omega
    · unfold fpToInt
      rw [h1]
      have hbig : (2 : Int) ^ 63 ≤ 2 ^ 1024 := pow_le_pow_right₀ (by norm_num) (by norm_num)
      cases a.getLsbD 63
      · simp only [Bool.false_eq_true, if_false, one_mul]
        rw [min_eq_left (by omega)]
        decide
      · simp only [if_true, neg_one_mul]
        rw [max_eq_left (le_trans (min_le_right _ _) (by omega))]
        decide

theorem fpTrunc_units (a : Word) (ha : fpFinitePattern a) :
    fpUnits (fpTrunc a) = (fpUnits a).tdiv fpOne * fpOne ∧ (fpTrunc a).getLsbD 63 = a.getLsbD 63 := by
  obtain ⟨m, e, h1, h2, h3, hm⟩ := fpUnpack_finite a ha
  have hone : fpOne = ((2 ^ 1074 : Nat) : Int) := by unfold fpOne; rw [Nat.cast_pow, Nat.cast_ofNat]
  have htd : (fpUnits a).tdiv fpOne =
      (if a.getLsbD 63 then -1 else 1) * ((m * 2 ^ (e + 1074).toNat / 2 ^ 1074 : Nat) : Int) := by
    rw [h3, hone, Int.natCast_div]
    cases a.getLsbD 63
    · simp only [Bool.false_eq_true, if_false, one_mul]
      rw [Int.tdiv_eq_ediv_of_nonneg (Int.natCast_nonneg _)]
    · simp only [if_true, neg_one_mul]
      rw [Int.neg_tdiv, Int.tdiv_eq_ediv_of_nonneg (Int.natCast_nonneg _)]
  by_cases he : 0 ≤ e
  · have hdef : fpTrunc a = a := by unfold fpTrunc; rw [h1]; simp only [if_pos he]
    rw [hdef]
    refine ⟨?_, rfl⟩
    have hq : m * 2 ^ (e + 1074).toNat / 2 ^ 1074 = m * 2 ^ e.toNat := by
      rw [show (e + 1074).toNat = e.toNat + 1074 by omega, pow_add, ← mul_assoc,
        Nat.mul_div_cancel _ (Nat.pow_pos (by norm_num))]
    rw [htd, hq, h3, hone, mul_assoc, ← Nat.cast_mul, mul_assoc, ← pow_add]
    rw [show (e + 1074).toNat = e.toNat + 1074 by omega]
  · have hq : m * 2 ^ (e + 1074).toNat / 2 ^ 1074 = m / 2 ^ (-e).toNat := by
      rw [show 1074 = (-e).toNat + (e + 1074).toNat by omega, pow_add,
        Nat.mul_div_mul_right _ _ (Nat.pow_pos (by norm_num))]
    set n := m / 2 ^ (-e).toNat with hn
    have hdef : fpTrunc a = fpRound .towardZero (a.getLsbD 63) n 0 false := by
      unfold fpTrunc; rw [h1]; simp only [if_neg he, ← hn]
    have hn53 : n < 2 ^ 53 := lt_of_le_of_lt (Nat.div_le_self _ _) hm
    rw [hdef, htd, hq]
    by_cases hn0 : n = 0
    · have : fpRound .towardZero (a.getLsbD 63) n 0 false = fpPack (a.getLsbD 63) 0 := by
        rw [hn0]; simp [fpRound]
      rw [this]
      refine ⟨?_, sign_pack _ _⟩
      rw [fpUnits_pack _ _ (by norm_num), show fpMagUnits 0 = 0 from rfl, hn0]
      cases a.getLsbD 63 <;> simp
    · have hL1 : 2 ^ Nat.log2 n ≤ n := (Nat.le_log2 hn0).1 le_rfl
      have hL2 : n < 2 ^ (Nat.log2 n + 1) := (Nat.log2_lt hn0).1 (Nat.lt_succ_self _)
      have hL3 : Nat.log2 n < 53 := (Nat.log2_lt hn0).2 hn53
      set L := Nat.log2 n
      have hlo : 2 ^ 52 ≤ n * 2 ^ (52 - L) := by
        calc 2 ^ 52 = 2 ^ L * 2 ^ (52 - L) := by rw [← pow_add]; congr 1; omega
          _ ≤ _ := Nat.mul_le_mul_right _ hL1
      have hhi : n * 2 ^ (52 - L) < 2 ^ 53 := by
        calc n * 2 ^ (52 - L) < 2 ^ (L + 1) * 2 ^ (52 - L) := Nat.mul_lt_mul_of_pos_right hL2 (by positivity)
          _ = 2 ^ 53 := by rw [← pow_add]; congr 1; omega
      have hr : fpRound .towardZero (a.getLsbD 63) n 0 false =
          fpPack (a.getLsbD 63) ((L + 1022) * 2 ^ 52 + n * 2 ^ (52 - L)) := by
        unfold fpRound
        rw [if_neg hn0]
        have hq : max ((0 : Int) + (L : Int) - 52) (-1074) = (L : Int) - 52 := by omega
        simp only [show Nat.log2 n = L from rfl, hq]
        rw [if_pos (show (L : Int) - 52 ≤ 0 by omega), show ((0 : Int) - (L - 52)).toNat = 52 - L by omega,
          show ((L : Int) - 52 + 1074).toNat = L + 1022 by omega, if_neg (by omega)]
      rw [hr]
      refine ⟨?_, sign_pack _ _⟩
      rw [fpUnits_pack _ _ (by omega), fpMagUnits_of _ _ (by omega) (fun _ => hlo)]
      have hu : n * 2 ^ (52 - L) * 2 ^ (L + 1022) = n * 2 ^ 1074 := by
        rw [mul_assoc, ← pow_add, show 52 - L + (L + 1022) = 1074 by omega]
      rw [hu, hone, mul_assoc, ← Nat.cast_mul]
      generalize n * 2 ^ 1074 = W
      cases a.getLsbD 63 <;> simp only [Bool.false_eq_true, if_true, if_false, one_mul, neg_one_mul]

end Sys2Proof.Machine
end

