-- ==== Sys2Proof/Tests/Slice0.lean ====
section
/-! SUPPORT. Tests. Words and results are those of 95_test_vectors.md and of the examples in the rules;
none is the model's own answer. After them, for each statement with hypotheses, a state and operands that
meet them. -/

namespace Sys2Proof.Tests

open Machine

/-! ### Helpers -/

/-- IP = 100h, the given scalar registers, everything else as after reset. -/
def regs (l : List (BitVec 5 × Word)) : State :=
  l.foldl (fun s p => s.writeX p.1 p.2) { State.reset with ip := 0x100#64 }

/-- The state after one step that runs the word `w`. -/
noncomputable def after (w : Nat) (s : State) : State :=
  match step (s.withFetchWord 36 w) with
  | .next t => t
  | _ => s

/-- x1 after the word `w`. -/
noncomputable def x1 (w : Nat) (l : List (BitVec 5 × Word)) : Word := (after w (regs l)).readX 1#5

/-- x1 after the modifier word `p` and the word `w`. -/
noncomputable def x1m (p w : Nat) (l : List (BitVec 5 × Word)) : Word := (after w (after p (regs l))).readX 1#5

/-- IP after the word `w` at 100h. -/
noncomputable def ipOf (w : Nat) (l : List (BitVec 5 × Word)) : Word := (after w (regs l)).ip

/-- Whether the word `w` raises: IP at the debug vector, EIP at the group, 1010b pushed on PMSTACK 6h. -/
noncomputable def trapped (w : Nat) (s : State) : Bool :=
  let t := after w { s with pmstack := 6#64, tvec := s.tvec.set 4 0x4000#64 }
  t.ip == 0x4000#64 && t.eip == s.groupAddr && t.pmstack == 0x6a#64 && t.x == s.x

/-- A vector register from its first elements. -/
def vec (l : List Word) : VReg := Vector.ofFn fun e => l.getD e.val 0#64

/-- The first four elements. -/
def first4 (a : VReg) : List Word := (a.toList).take 4

/-! ### WellFormed: each check refuses an ill-formed term (48 R673) -/

theorem test_wf_cbrk_rti : (Instr.cBrk 120#7).wellFormed = false := by decide
theorem test_wf_cbrk_pfi : (Instr.cBrk 121#7).wellFormed = false := by decide
theorem test_wf_cbrk_wfi : (Instr.cBrk 123#7).wellFormed = false := by decide
theorem test_wf_cbrk_sync : (Instr.cBrk 125#7).wellFormed = false := by decide
theorem test_wf_cldo_fp : (Instr.cLdoFp 5#7 0#5).wellFormed = false := by decide

/-! ### Decoding: words written out from the spec's encodings -/

theorem test_decode_r1 : decode 0x0c0008101#36 = .ok (.abs false ⟨0#3, false, .x 2#5, .x 1#5⟩) ∧
    decode 0x0c078a181#36 = .ok (.abs true ⟨3#3, true, .v 2#5, .v 1#5⟩) := ⟨rfl, rfl⟩
theorem test_decode_r2 : decode 0x080308102#36 = .ok (.add false ⟨.x 3#5, .x 2#5, .x 1#5⟩) ∧
    decode 0x087f08102#36 = .ok (.add false ⟨.imm 63#6, .x 2#5, .x 1#5⟩) ∧
    decode 0x08238a182#36 = .ok (.add true ⟨.v 3#5, .v 2#5, .v 1#5⟩) := ⟨rfl, rfl, rfl⟩
theorem test_decode_ri : decode 0x006408104#36 = .ok (.addImmediate false ⟨100#16, .x 2#5, .x 1#5⟩) := rfl
theorem test_decode_options : decode 0x0d0308102#36 = .ok (.mul false 2#2 ⟨.x 3#5, .x 2#5, .x 1#5⟩) ∧
    decode 0x208308102#36 = .ok (.div false 1#2 ⟨.x 3#5, .x 2#5, .x 1#5⟩) := ⟨rfl, rfl⟩
theorem test_decode_float : decode 0x101008134#36 = .ok (.fsqrt false 1#3 ⟨0#3, false, .x 2#5, .x 1#5⟩) ∧
    decode 0x085808135#36 = .ok (.fadd false ⟨.imm 24#6, .x 2#5, .x 1#5⟩) := ⟨rfl, rfl⟩
theorem test_decode_decimal : decode 0x080308131#36 = .ok (.dfadd false ⟨.x 3#5, .x 2#5, .x 1#5⟩) := rfl
theorem test_decode_branch : decode 0xffc08774f#36 = .ok (.bne ⟨.imm 0#6, 1#5, 0xfff7#16⟩) := rfl
theorem test_decode_jump : decode 0x000016941#36 = .ok (.bal 90#26 1#2) ∧
    decode 0x00127c142#36 = .ok (.jalr ⟨18#16, .x 31#5, .x 1#5⟩) := ⟨rfl, rfl⟩
theorem test_decode_system : decode 0x00000c000#36 = .ok (.brk 3#8) ∧
    decode 0x264500907#36 = .ok (.rte (.imm 5#6) 9#12) ∧
    decode 0x186808007#36 = .ok (.pushqi 40#6 (.x 2#5)) := ⟨rfl, rfl, rfl⟩
theorem test_decode_csr : decode 0x30010a10f#36 = .ok (.csrrw ⟨0x3001#16, 2#5, 1#5⟩) ∧
    decode 0x00108800f#36 = .ok (.csrrs ⟨0x0010#16, 2#5, 0#5⟩) := ⟨rfl, rfl⟩
theorem test_decode_load : decode 0x0fff08160#36 = .ok (.ldb ⟨0xfff#12, .x 2#5, .x 1#5⟩) ∧
    decode 0x318308161#36 = .ok (.ldoIndexed ⟨3#3, .x 3#5, .x 2#5, .x 1#5⟩) := ⟨rfl, rfl⟩
theorem test_decode_store : decode 0x3f830b868#36 = .ok (.sto ⟨0x7f8#11, .x 3#5, .x 2#5⟩) ∧
    decode 0x3023080f2#36 = .ok (.stsx 3#4 ⟨0#11, .v 3#5, .x 2#5⟩) := ⟨rfl, rfl⟩
theorem test_decode_stack : decode 0x200615e6f#36 = .ok (.pushPair ⟨.x 6#5, .x 5#5, .x 30#5⟩) ∧
    decode 0x002075e3c#36 = .ok (.link ⟨32#16, .x 29#5, .x 30#5⟩) := ⟨rfl, rfl⟩
theorem test_decode_mask : decode 0x0c440813e#36 = .ok (.msll ⟨.imm 4#6, 2#3, 1#3⟩) ∧
    decode 0x1a001013e#36 = .ok (.mpop ⟨2#3, 0#2, 1#5⟩) := ⟨rfl, rfl⟩
theorem test_decode_imod :
    decode 0x00c0013d8#36 = .ok (.imod true ⟨0#3, .imm 0#6, .imm 0#6, 1#2, 1#3, true⟩) := rfl
theorem test_decode_stride :
    decode 0x00008d35b#36 = .ok (.stride false ⟨0#15, .v 3#5, 1#2, 1#3, true⟩) := rfl
theorem test_decode_brmod : decode 0x00001415a#36 = .ok (.brmod ⟨0#15, .x 5#5, 0#4, 1#2⟩) := rfl
theorem test_decode_exi : decode 0xf13579b50#36 = .ok (.exi0 0xf13579b#28) := rfl
theorem test_decode_compressed : decode 0x48374#36 = .ok (.cMov 4#5 3#5) ∧
    decode 0xf0070#36 = .ok .cRti ∧ decode 0x06070#36 = .ok (.cBrk 3#7) ∧
    decode 0xe717a#36 = .ok (.cBal 0x39c#10 1#2) := ⟨rfl, rfl, rfl, rfl⟩
theorem test_decode_blank : (∃ e, decode 0x0000000be#36 = .error e) ∧ ∃ e, decode 0x0000000da#36 = .error e :=
  ⟨⟨_, rfl⟩, ⟨_, rfl⟩⟩
/-- A type code 1 in Rt of PUSHQ and in Rb of POPQ (30 R130); bit 26 of PUSHQI, which counts for nothing (log 32). -/
theorem test_decode_queue : (∃ e, decode 0x10030a007#36 = .error e) ∧ (∃ e, decode 0x12200c107#36 = .error e) ∧
    decode 0x184f08007#36 = .ok (.pushqi 15#6 (.x 2#5)) ∧ decode 0x180f08007#36 = .ok (.pushqi 15#6 (.x 2#5)) :=
  ⟨⟨_, rfl⟩, ⟨_, rfl⟩, rfl, rfl⟩
theorem test_table_word : decodeTableWord 36 0x080308102 = some (.add false ⟨.x 3#5, .x 2#5, .x 1#5⟩) ∧
    decodeTableWord 20 0x48374 = some (.cMov 4#5 3#5) := ⟨rfl, rfl⟩

/-! ### Integer operations (95 section 2.1 and 2.2) -/

theorem test_add : x1 0x080308102 [(2, 0xffffffffffffffff), (3, 1)] = 0 ∧
    x1 0x086008102 [(2, 1)] = 0xffffffffffffffe1 ∧ x1 0x080104102 [(1, 0x8000000000000001)] = 2 := by decide
theorem test_add_immediate : x1 0xffff08104 [(2, 0x8000000000000000)] = 0x7fffffffffffffff ∧
    (after 0x000508004 (regs [(2, 1)])).x = (regs [(2, 1)]).x := by decide
theorem test_subf_immediate : x1 0x000a08105 [(2, 11)] = 0xffffffffffffffff := by decide
theorem test_and_immediate : x1 0xff0008108 [(2, 0x123456789abcdef0)] = 0x123456789abcde00 := by decide
theorem test_or_xor_immediate : x1 0x800008109 [] = 0x8000 ∧
    x1 0xffff0810a [(2, 0xffffffffffffffff)] = 0xffffffffffff0000 := by decide
theorem test_mul_immediate : x1 0x000308106 [(2, -5)] = 0xfffffffffffffff1 ∧
    x1 0xffff0810e [(2, 2)] = 0x1fffe := by decide
theorem test_mulf : x1 0x000308115 [(2, 0xffffffffffffffff)] = 0x02fffffd ∧
    x1 0x380308102 [(2, 0x1000005), (3, 0x10003)] = 15 := by decide
theorem test_mulsu_immediate : x1 0x000708116 [(2, -2)] = -14 := by decide
theorem test_div_immediate : x1 0x000708110 [(2, 100)] = 14 ∧
    x1 0xffff08110 [(2, 0x8000000000000000)] = 0x8000000000000000 := by decide
theorem test_divr_immediate : x1 0x006408121 [(2, 7)] = 14 := by decide
theorem test_divu_immediate : x1 0x000a08111 [(2, 0xffffffffffffffff)] = 0x1999999999999999 := by decide
theorem test_divsu_immediate : x1 0x000a08112 [(2, -25)] = -2 := by decide
theorem test_rem_immediate : x1 0x000708118 [(2, -10)] = -3 ∧ x1 0x000708119 [(2, 10)] = 3 := by decide
theorem test_set_immediate : x1 0x000508126 [(2, 5)] = 1 ∧ x1 0xffff08128 [(2, -2)] = 1 ∧
    x1 0xffff0812a [(2, 0x10000)] = 0 ∧ x1 0xffff0812a [(2, 0xfffe)] = 1 ∧
    x1 0x00050812b [(2, 0xffffffffffffffff)] = 1 := by decide
theorem test_sub : x1 0x0a0308102 [(2, 3), (3, 5)] = 0xfffffffffffffffe := by decide
theorem test_cmp : x1 0x400308102 [(2, -1), (3, 1)] = -1 ∧ x1 0x407f08102 [(2, -1)] = 0 ∧
    x1 0x404008102 [(2, -9)] = -1 := by decide
theorem test_div : x1 0x200308102 [(2, -7), (3, 2)] = -3 ∧
    x1 0x200308102 [(2, 0x8000000000000000), (3, -1)] = 0x8000000000000000 := by decide
theorem test_div_traps : trapped 0x210308102 (regs [(2, 0x8000000000000000), (3, -1)]) = true ∧
    trapped 0x208308102 (regs [(2, 5)]) = true := by decide
theorem test_mul : x1 0x0c0308102 [(2, 0x4000000000000000), (3, 4)] = 0 ∧
    trapped 0x0d0308102 (regs [(2, 0x4000000000000000), (3, 4)]) = true := by decide
theorem test_mulh : x1 0x1e0308102 [(2, -1), (3, 1)] = -1 ∧
    x1 0x3c0308102 [(2, 0xffffffffffffffff), (3, 0xffffffffffffffff)] = 0xfffffffffffffffe := by decide
theorem test_divsu : x1 0x240308102 [(2, -8), (3, 0xffffffffffffffff)] = 0 := by decide
theorem test_dif : x1 0x300308102 [(2, 3), (3, 10)] = 7 := by decide
theorem test_min_max : x1 0x520308102 [(2, -1), (3, 1)] = 1 ∧ x1 0x500308102 [(2, -1), (3, 1)] = -1 := by decide
theorem test_sll : x1 0x804408102 [(2, 0xf00000000000000f)] = 0xf0 ∧
    x1 0x807f08102 [(2, 1)] = 0x8000000000000000 ∧ x1 0x800308102 [(2, 1), (3, 68)] = 0x10 ∧
    x1 0x800308102 [(2, 1), (3, 64)] = 1 := by decide
theorem test_srl_sra : x1 0x827f08102 [(2, 0x8000000000000000)] = 1 ∧
    x1 0x844408102 [(2, 0xf00000000000000f)] = 0xff00000000000000 := by decide
theorem test_rol_ror : x1 0x860308102 [(2, 0x8000000000000001), (3, 1)] = 3 ∧
    x1 0x880308102 [(2, 1), (3, 1)] = 0x8000000000000000 := by decide
theorem test_set : x1 0x5c7f08102 [(2, 62)] = 1 ∧ x1 0x5a0308102 [(2, -1), (3, 1)] = 0 ∧
    x1 0x5e0308102 [(2, -1), (3, 1)] = 1 := by decide
theorem test_perm : x1 0x2e0308102 [(2, 0x0102030405060708), (3, 0x053977)] = 0x0807060504030201 ∧
    x1 0x000008117 [(2, 0x0102030405060708)] = 0x0808080808080808 := by decide
theorem test_bytndx : x1 0x00030811a [(2, 0x0000004100424344), (3, 0x42)] = 2 ∧
    x1 0x00030811a [(2, 0x0000004100424344), (3, 0x99)] = -1 ∧
    x1 0x10000811a [(2, 0x0000004100424344)] = 3 := by decide
theorem test_wydndx_u21ndx : x1 0x00000811b [(2, 0x0041000000420043)] = 2 ∧
    x1 0x000008123 [(2, 0x0000000000200041)] = 2 := by decide
theorem test_mor_mxor : x1 0x600308102 [(2, 0x8040201008040201), (3, 0x123456789abcdef0)] = 0x123456789abcdef0 ∧
    x1 0x620308102 [(2, 0xffffffffffffffff), (3, 0xffffffffffffffff)] = 0 := by decide
theorem test_abs : x1 0x0c0008101 [(2, -5)] = 5 ∧
    x1 0x0c0008101 [(2, 0x8000000000000000)] = 0x8000000000000000 := by decide
theorem test_counts : x1 0x000008101 [(2, 1)] = 63 ∧ x1 0x000008101 [] = 64 ∧
    x1 0x020008101 [(2, 0xff00000000000000)] = 8 ∧ x1 0x040008101 [(2, 0xf0f0)] = 8 := by decide
theorem test_com_not : x1 0x060008101 [] = 0xffffffffffffffff ∧ x1 0x080008101 [] = 1 := by decide
theorem test_sqrt : x1 0x100008101 [(2, 17)] = 4 ∧ x1 0x100008101 [(2, 0xffffffffffffffff)] = 0xffffffff := by decide
theorem test_extend : x1 0x280008101 [(2, 0x1280)] = 0xffffffffffffff80 ∧ x1 0x180008101 [(2, 0x1280)] = 0x80 := by
  decide
theorem test_tst : trapped 0x160008101 (regs []) = true := by decide

/-! ### Instructions after a modifier word (95 section 2.3 and 2.4) -/

theorem test_dep : x1m 0x00c720058 0x06030811c [(2, 0xffffffffffffffff), (3, 0x12)] = 0xffffffffffff12ff := by decide
theorem test_ext : x1m 0x00c710058 0x08030811c [(2, 0x0f80)] = 0xfffffffffffffff8 ∧
    x1m 0x00ff10058 0x08030811c [(2, 0x100), (3, 0xffffffffffffffff)] = 0xf000000000000010 := by decide
theorem test_extu : x1m 0x00c710058 0x0a030811c [(2, 0x0f80)] = 0xf8 := by decide
theorem test_ffo : x1m 0x00ff00058 0x0c000811c [(2, 0x10000)] = 16 ∧ x1m 0x00ff00058 0x0c000811c [] = -1 := by decide
theorem test_mux : x1m 0x004010058 0x080308103
      [(2, 0xffff0000), (3, 0x1111111111111111), (4, 0x2222222222222222)] = 0x2222222211112222 ∧
    x1 0x080308103 [(2, 0xffff0000), (3, 0x1111111111111111)] = 0x11110000 := by decide
theorem test_sllp : x1m 0x004010058 0x204408103 [(2, 0x0f), (4, 0xa000000000000000)] = 0xfa := by decide
theorem test_ptrdif : x1m 0x00c00c058 0x300308103 [(2, 0x1000), (3, 0x1040)] = 8 := by decide
theorem test_chk : (after 0x006408022 (after 0x00400c058 (regs [(3, 100)]))).ip = 0x112 ∧
    trapped 0x006408322 (after 0x00400c058 (regs [(3, 100)])) = true ∧
    (after 0x006408322 (after 0x00400c058 (regs [(3, 100)]))).eip = 0x100 := by decide
theorem test_blend : x1m 0x004010058 0x600308103 [(2, 0x7f204060), (3, 0x00c0a080), (4, 0x80)] = 0x7f6f6f6f := by
  decide
theorem test_fma : x1m 0x004010058 0x000308136
    [(2, 0x4000000000000000), (3, 0x4008000000000000), (4, 0x4010000000000000)] = 0x4024000000000000 := by decide
theorem test_fdp : x1m 0x000510058 0x6e0308103 [(2, 0x4000000000000000), (3, 0x4008000000000000),
    (4, 0x4010000000000000), (5, 0x3fe0000000000000)] = 0x4020000000000000 := by decide
theorem test_myst : x1m 0x008600058 0x00070811f [(6, 4), (2, 10)] = 17 ∧
    x1m 0x008600058 0x3e0308102 [(6, 0x080000002), (2, 10), (3, 4)] = 14 := by decide
theorem test_exi0 : x1m 0x000020050 0x000000104 [] = 0x100000 ∧
    x1m 0xffffe0050 0x000000104 [] = 0xfffffffffff00000 ∧ x1m 0x000000050 0x800108104 [] = 1 := by decide
theorem test_exi1 :
    (after 0x06f000104 (after 0x02468ac51 (after 0xf13579b50 (regs [])))).readX 1 = 0x123456789abcdef0 := by decide
/-- EXI2 alone has no effect (D1). -/
theorem test_exi2 : x1m 0x000020052 0x0000f8104 [] = 0 ∧ x1m 0x000020052 0x80000810a [] = 0x8000 := by decide
theorem test_exi_and : x1m 0x00001ff50 0x07ff08108 [(2, 0xffffffffffffffff)] = 0xfffff := by decide

/-- A vector register as C, D or the stride before a word with v = 0 (30 R130; log 17), and before {VM} (47 R601). -/
theorem test_vector_modifier : trapped 0x300028860 (after 0x002000058 (regs [])) = true ∧
    trapped 0x300028860 (after 0x00008005b (regs [])) = true ∧
    trapped 0x7c0308102 (after 0x000080058 (regs [])) = true ∧
    trapped 0x3c0308107 (after 0x002000058 (regs [])) = true ∧
    (after 0x20000813e (after 0x000080058 (regs [(2, 5)]))).readM 1 = 5 := by decide

/-! ### Loads, stores, stack (95 section 2.5) -/

/-- The octa 1234_5678_9ABC_DEF0h at 8000h; x10 = 8000h. -/
def octa (l : List (BitVec 5 × Word)) : State := (regs ((10, 0x8000) :: l)).store 0x8000 8 0x123456789abcdef0

theorem test_ldb : (after 0x000128260 (octa [])).readX 2 = 0xffffffffffffffde ∧
    (after 0x000128364 (octa [])).readX 3 = 0xde := by decide
theorem test_ldw : (after 0x100328460 (octa [])).readX 4 = 0x789a ∧
    (after 0x100028660 (octa [])).readX 6 = 0xffffffffffffdef0 ∧
    (after 0x100028764 (octa [])).readX 7 = 0xdef0 := by decide
theorem test_ldt : (after 0x200028960 (octa [])).readX 9 = 0xffffffff9abcdef0 ∧
    (after 0x200428564 (octa [])).readX 5 = 0x12345678 := by decide
theorem test_ldo : (after 0x300028860 (octa [])).readX 8 = 0x123456789abcdef0 ∧
    (after 0x318328861 (octa [])).readX 8 = 0x123456789abcdef0 := by decide
theorem test_load_exi :
    (after 0x334508160 (after 0x000002450 ((regs [(2, 0x1000)]).store 0x13345 8 0xaabb))).readX 1 = 0xaabb := by decide
theorem test_load_hexi : trapped 0x400028160 (octa []) = true := by decide
theorem test_stb : byteAt (after 0x000308568 (regs [(2, 0x1000), (3, 0x1234)])).mem 0x1005 = 0x34 ∧
    byteAt (after 0x007f28968 (octa [])).mem 0x8009 = 0x3f := by decide
theorem test_stt : memRead (after 0x204508068 ((regs [(2, 0x1000)]).store 0x1000 8 (-1))).mem 0x1000 8
    = 0xffffffff00000005 := by decide
theorem test_sto : memRead (after 0x3f830b868 (regs [(2, 0x1008), (3, 0x77)])).mem 0x1000 8 = 0x77 ∧
    memRead (after 0x318308069 (after 0x004010058 (regs [(2, 0x1000), (4, 2), (3, 0x77)]))).mem 0x1010 8 = 0x77 := by
  decide
theorem test_store_exi :
    memRead (after 0x3d0309068 (after 0xfffffdd50 (regs [(2, 0x20000), (3, 0xaabb)]))).mem 0xee90 8 = 0xaabb := by
  decide
theorem test_stptr : (let t := after 0x700308068 (regs [(2, 0x00123456), (3, 0x1122334455667788)]);
    memRead t.mem 0x123456 8 = 0x1122334455667788 ∧ t.mem.length = 8) := by decide
theorem test_push : (let t := after 0x200615e6f (regs [(30, 0x8000), (5, 5), (6, 6)]);
    t.readX 30 = 0x7ff0 ∧ memRead t.mem 0x7ff0 8 = 6 ∧ memRead t.mem 0x7ff8 8 = 5) := by decide
/-- Type codes that disagree with v = 0 (30 R130): of PUSH's second register and of IMOD's C before ADD. -/
theorem test_type_codes : trapped 0x102015e6f (regs [(30, 0x8000)]) = true ∧
    trapped 0x080308102 (after 0x000080058 (regs [])) = true := by decide
theorem test_pop : (let t := after 0x200615e67 (((regs [(30, 0x7ff0)]).store 0x7ff0 8 6).store 0x7ff8 8 5);
    t.readX 30 = 0x8000 ∧ t.readX 6 = 6 ∧ t.readX 5 = 5) := by decide
theorem test_link : (let t := after 0x002075e3c (regs [(30, 0x8000), (29, 0x9000)]);
    memRead t.mem 0x7ff8 8 = 0x9000 ∧ t.readX 29 = 0x7ff8 ∧ t.readX 30 = 0x7fd8) ∧
    (after 0xffff75e3c (regs [(30, 0x20000)])).readX 30 = 0xfff9 := by decide
theorem test_unlink : (let t := after 0x000075e3d ((regs [(29, 0x7ff8)]).store 0x7ff8 8 0x9000);
    t.readX 29 = 0x9000 ∧ t.readX 30 = 0x8000) := by decide
theorem test_stm : (let t := after 0xd00008068 (after 0x00000045f (regs [(1, 11), (2, 0x3000), (5, 55)]));
    memRead t.mem 0x3000 8 = 11 ∧ memRead t.mem 0x3008 8 = 0x3000 ∧ memRead t.mem 0x3010 8 = 55) := by decide
theorem test_ldm : (let t := after 0xd00008060 (after 0x00000045f
      ((((regs [(2, 0x3000)]).store 0x3000 8 11).store 0x3008 8 22).store 0x3010 8 55));
    t.readX 1 = 11 ∧ t.readX 2 = 22 ∧ t.readX 5 = 55) := by decide
theorem test_cache : (let t := after 0xf00000260 ((regs []).store 0x9000 1 7);
    byteAt t.imem 0x9000 = 7 ∧ t.x = (regs []).x) := by decide

/-! ### Flow (95 section 2.6) -/

theorem test_beq : ipOf 0x00020524e [(1, 5), (2, 5)] = 0x112 ∧ ipOf 0x00020524e [(1, 5), (2, 6)] = 0x109 := by decide
theorem test_bne : ipOf 0xffc08774f [(1, 1)] = 0xf7 := by decide
theorem test_blt_bge : ipOf 0x000286448 [(1, -1)] = 0x164 ∧ ipOf 0xff0207849 [] = 0x38 := by decide
theorem test_bltu_bgeu : ipOf 0x00020494a [(1, -1)] = 0x109 ∧ ipOf 0x004505b4b [(1, 5)] = 0x11b ∧
    ipOf 0x004505b4b [(1, 4)] = 0x109 := by decide
theorem test_bbs : ipOf 0x007f05b4d [(1, 0x8000000000000000)] = 0x11b ∧ ipOf 0x004305b4d [(1, 0xf7)] = 0x109 := by
  decide
theorem test_brmod :
    (let t := after 0x00020524e (after 0x00001415a (regs [(1, 7), (2, 7), (5, 0x2000)]));
      t.ip = 0x2012 ∧ t.readX 1 = 0x112) ∧
    (let t := after 0x00020524e (after 0x00001415a (regs [(1, 7), (2, 8), (5, 0x2000)]));
      t.ip = 0x112 ∧ t.readX 1 = 0x112) := by decide
theorem test_brmod_base : (after 0x00020524e (after 0x00007c45a (regs []))).ip = 0x1011b ∧
    (after 0xff8287c4e (after 0xfffe03c5a (regs []))).ip = 0xfffffffffffffffc := by decide
theorem test_bal_jal : (let t := after 0x000016941 { regs [] with ip := 0x1000 };
      t.ip = 0x105a ∧ t.readX 1 = 0x1009) ∧
    (let t := after 0x000400140 { regs [] with ip := 0x50 };
      t.ip = 0x1000 ∧ t.readX 1 = 0x59) := by decide
theorem test_jalr : ipOf 0x000004042 [(1, 0x30e)] = 0x30e ∧
    (let t := after 0x000004142 { regs [(1, 0x500)] with ip := 0x200 };
      t.ip = 0x500 ∧ t.readX 1 = 0x209) ∧
    (after 0x00127c142 { regs [] with ip := 0x200 }).ip = 0x212 := by decide
theorem test_blank_opcode : trapped 0x000000043 (regs []) = true := by decide

/-! ### System (95 section 2.7) -/

theorem test_brk : (let t := (after 0x00000c000 { regs [] with ip := 0x120, pmstack := 6, tvec := State.reset.tvec.set 4 0x4000 });
    t.pmstack = 0x6a ∧ t.causeOf .debug = 3 ∧ t.eip = 0x120 ∧ t.ip = 0x4000) := by decide
theorem test_rte : (let t := (after 0x264500907 { regs [] with pmstack := 0x6a, eip := 0x120, semaphore := Vector.replicate 64 true });
    t.pmstack = 6 ∧ t.ip = 0x129 ∧ t.semaphore = ((Vector.replicate 64 true).set 0 false).set 5 false) := by decide
theorem test_rex : (let t := (after 0x208000007 { regs [] with pmstack := 0x6a, cause := State.reset.cause.set 4 0x21, tvec := State.reset.tvec.set 1 0x5000 });
    t.causeOf .supervisor = 0x21 ∧ t.pmstack = 0x62 ∧ t.ip = 0x5000) ∧
    (after 0x218000007 { regs [] with pmstack := 6 }).ip = 0x109 := by decide
theorem test_csr : (let t := after 0x30010a10f { regs [(2, 9)] with pmstack := 6, csr := [(0x3001, 5)] };
      t.readX 1 = 5 ∧ t.csr = [(0x3001, 9)]) ∧
    (let t := after 0x00108800f { regs [(2, 0x0f)] with pmstack := 0, csr := [(0x10, 0xf0)] };
      t.csr = [(0x10, 0xff)]) ∧
    (let t := after 0x40028a10f { regs [(2, 0x0f)] with csr := [(0x4002, 0xff)] };
      t.readX 1 = 0xff ∧ t.csr = [(0x4002, 0xf0)]) := by decide
theorem test_csr_privilege : (let t := after 0x30010010f { regs [] with pmstack := 2 };
      t.pmstack = 0x2a ∧ t.readX 1 = 0) ∧
    (after 0x50000010f (regs [])).pmstack = 0xaa := by decide
theorem test_exec : x1 0x0e0014007 [(5, 0x000508104), (2, 10)] = 15 := by decide
/-- BRMOD before EXEC is ignored (46 R550). -/
theorem test_exec_brmod : x1m 0x00000005a 0x0e0014007 [(5, 0x000508104), (2, 10)] = 15 := by decide
theorem test_pfi : (let t := (after 0x220000107 { regs [] with irqLines := [⟨3, 0x41⟩], tvec := State.reset.tvec.set 4 0x4000 });
    t.readX 1 = 0x341 ∧ t.causeOf .debug = 0x341 ∧ t.eip = 0x100 ∧ t.ip = 0x4000) ∧
    ipOf 0x220000107 [] = 0x109 := by decide
theorem test_wfi : (let t := after 0x240000007 (regs []); t.waiting = true ∧ t.ip = 0x100) ∧
    (after 0x240000007 { regs [] with irqLines := [⟨1, 0⟩] }).ip = 0x109 := by decide
theorem test_sync_nop : ipOf 0x3e0000007 [] = 0x109 ∧ ipOf 0x00000003f [] = 0x109 := by decide
theorem test_tlbrw : (let t := after 0x3c0308107 { regs [(2, 0x8000000000000405), (3, 7)] with tlb := [(1029, 9)] };
      t.readX 1 = 9 ∧ t.tlb = [(1029, 7)]) ∧
    (after 0x3c0308107 { regs [(2, 0x405), (3, 7)] with tlb := [(1029, 9)] }).tlb = [(1029, 9)] := by decide
theorem test_setkey : trapped 0x280000007 (regs []) = true := by decide
theorem test_queue_push : (let t := after 0x184f08007 ((regs [(2, 0x11)]).setQueue 15 [0x10]);
      t.queue 15 = [0x10, 0x11]) ∧
    (after 0x100308007 (regs [(2, 0x11), (3, 0x4f)])).queue 15 = [0x11] := by decide
theorem test_queue_pop : (let t := after 0x1a003c107 ((regs []).setQueue 15 [0x11, 0x22]);
      t.readX 1 = 0x11 ∧ t.queue 15 = [0x22]) ∧
    x1 0x1a003c107 [(1, 5)] = 0 := by decide
theorem test_queue_peek_status : (after 0x1c003c107 ((regs []).setQueue 15 [0x11, 0x22])).readX 1 = 0x11 ∧
    (after 0x1e003c107 ((regs []).setQueue 15 [1, 2, 3])).readX 1 = 0x4000000000000003 ∧
    x1 0x1e003c107 [] = 0x8000000000000000 := by decide
theorem test_interrupt : (let t := (after 0x080308102 { regs [] with pmstack := 7, irqLines := [⟨3, 0x41⟩], tvec := State.reset.tvec.set 4 0x4000 });
    t.pmstack = 0x7a ∧ t.causeOf .debug = 0x341 ∧ t.eip = 0x100 ∧ t.ip = 0x4000 ∧ t.irqLines = [⟨3, 0x41⟩]) := by decide
/-- An EXI0 word and ADD with the lines up but the enable 0, and ADD with both up after the EXI0 word (30 R128, 60 R750):
no interrupt comes. -/
theorem test_no_interrupt : (let t := (after 0x080308102 { regs [(2, 3), (3, 4)] with pmstack := 6, irqLines := [⟨3, 0x41⟩] });
    t.readX 1 = 7 ∧ t.ip = 0x109) ∧
    (let s := after 0x000000150 (regs [(2, 3), (3, 4)]);
    let t := after 0x080308102 { s with pmstack := 7, irqLines := [⟨3, 0x41⟩] };
    t.readX 1 = 7 ∧ t.ip = 0x112 ∧ t.irqLines = []) := by decide

/-! ### Vectors and masks (95 section 2.8) -/

/-- VL = n, with the given registers. -/
def vecs (n : Word) (x : List (BitVec 5 × Word)) (v : List (BitVec 5 × VReg)) (m : List (BitVec 3 × Mask)) : State :=
  m.foldl (fun s p => s.writeM p.1 p.2)
    (v.foldl (fun s p => s.writeV p.1 p.2) { regs x with vl := n })

/-- v1 = 99 everywhere, v2 = [1, 2, 3, 4], v3 = [10, 20, 30, 40], vm1 = 5. -/
def addState (n : Word) : State :=
  vecs n [] [(1, Vector.replicate 64 99), (2, vec [1, 2, 3, 4]), (3, vec [10, 20, 30, 40])] [(1, 5)]

theorem test_vector_add : (let t := after 0x08238a182 (addState 4);
      first4 (t.readV 1) = [11, 22, 33, 44] ∧ (t.readV 1)[4] = 99) ∧
    (after 0x08238a182 (addState 0)).v = (addState 0).v := by decide
theorem test_vector_add_masked :
    first4 ((after 0x08238a182 (after 0x00c0013d8 (addState 4))).readV 1) = [11, 0, 33, 0] ∧
    first4 ((after 0x08238a182 (after 0x00c0012d8 (addState 4))).readV 1) = [11, 99, 33, 99] := by decide
theorem test_vector_abs : first4 ((after 0x0c078a181 (vecs 2 [] [(2, vec [-1, -2])] [(3, 2)])).readV 1) = [0, 2, 0, 0] := by
  decide
theorem test_vector_bytndx : (after 0x10008819a
    (vecs 2 [] [(2, vec [0x4141414141414141, 0x4141])] [])).readX 1 = 10 := by decide
theorem test_mtvl_mfvl : (after 0x24000803e (regs [(2, 1000)])).vl = 64 ∧
    (after 0x26000013e (vecs 4 [] [] [])).readX 1 = 4 := by decide
theorem test_mtm_mfm : (after 0x20000813e (regs [(2, 5)])).readM 1 = 5 ∧
    (after 0x22001013e (vecs 0 [] [] [(2, 0xf0)])).readX 1 = 0xf0 := by decide
theorem test_mfill : (after 0x18000813e (regs [(2, 5)])).readM 1 = 0x1f ∧
    (after 0x18000813e (regs [(2, 64)])).readM 1 = 0xffffffffffffffff ∧
    (after 0x18000813e (regs [])).readM 1 = 0 := by decide
theorem test_mask_logic : (after 0x000c1013e (vecs 0 [] [] [(2, 0x0f), (3, 0x3c)])).readM 1 = 0x0c ∧
    (after 0x020c1013e (vecs 0 [] [] [(2, 0x0f), (3, 0x3c)])).readM 1 = 0x3f ∧
    (after 0x040c1013e (vecs 0 [] [] [(2, 0x0f), (3, 0x3c)])).readM 1 = 0x33 := by decide
theorem test_madd : (after 0x080c1013e (vecs 0 [] [] [(2, 0xffffffffffffffff), (3, 1)])).readM 1 = 0 := by decide
theorem test_mask_shift : (after 0x0c440813e (vecs 0 [] [] [(2, 0x0f)])).readM 1 = 0xf0 ∧
    (after 0x0e410813e (vecs 0 [] [] [(2, 0xf0)])).readM 1 = 0x78 := by decide
theorem test_mpop : (after 0x1a001013e (vecs 0 [] [] [(2, 0xf0f0)])).readX 1 = 8 := by decide
theorem test_mfirst_mlast : (after 0x1c001013e (vecs 0 [] [] [(2, 0x28)])).readX 1 = 3 ∧
    (after 0x1e001013e (vecs 0 [] [] [(2, 0x28)])).readX 1 = 5 ∧ x1 0x1c001013e [] = 128 ∧
    x1 0x1e001013e [] = 128 := by decide
theorem test_v2bits : (after 0x300788181 (vecs 4 [(1, 0xf0)] [(2, vec [1, 0, 3, 2])] [(3, 0xf)])).readX 1 = 0xf5 := by
  decide +kernel
theorem test_bits2v : first4 ((after 0x32060a181 (vecs 4 [(2, 0x0a)] [] [(3, 0xf)])).readV 1) = [0, 1, 0, 1] := by decide
theorem test_vcidx : first4 ((after 0x3a060a181 (vecs 4 [(2, 8)] [(1, vec [5, 6, 7, 9])] [(3, 0xa)])).readV 1)
    = [8, 24, 7, 9] := by decide
theorem test_vcmprss : first4 ((after 0x38078a181
    (vecs 4 [] [(1, vec [5, 6, 7, 9]), (2, vec [10, 11, 12, 13])] [(3, 0xa)])).readV 1) = [11, 13, 0, 0] := by decide
theorem test_vscan : first4 ((after 0x3c060a181 (vecs 4 [(2, 8)] [] [(3, 0xb)])).readV 1) = [0, 8, 16, 16] := by decide
theorem test_slides : first4 ((after 0x70418a182 (vecs 4 [] [(2, vec [10, 11, 12, 13])] [])).readV 1) = [0, 10, 11, 12] ∧
    first4 ((after 0x72428a182 (vecs 4 [] [(2, vec [10, 11, 12, 13])] [])).readV 1) = [12, 13, 0, 0] := by decide
theorem test_vex_veins : (after 0x742308182 (vecs 4 [(2, 2)] [(3, vec [10, 11, 12, 13])] [])).readX 1 = 12 ∧
    first4 ((after 0x76030a182 (vecs 4 [(2, 1), (3, 99)] [] [])).readV 1) = [0, 99, 0, 0] := by decide
theorem test_ldso : (let s := ((vecs 3 [(2, 0x4000)] [] []).store 0x4000 8 7).store 0x4010 8 9;
    first4 ((after 0x30000a1e2 (after 0x00012005b s)).readV 1) = [7, 0, 9, 0]) := by decide
theorem test_cvldso : (let s := ((vecs 4 [(2, 0x4000)] [] [(1, 0xa)]).store 0x4000 8 7).store 0x4008 8 9;
    first4 ((after 0x30000a1e6 (after 0x00012125b s)).readV 1) = [7, 9, 0, 0]) := by decide
theorem test_cvldovx :
    (let s := ((vecs 4 [(2, 0x4000)] [(3, vec [0, 16, 32, 48])] [(1, 6)]).store 0x4010 8 7).store 0x4020 8 9;
    first4 ((after 0x30000a1e7 (after 0x00008d25b s)).readV 1) = [7, 9, 0, 0]) := by decide
theorem test_cvstso :
    (let t := after 0x3023080f6 (after 0x00012135b (vecs 4 [(2, 0x4000)] [(3, vec [10, 11, 12, 13])] [(1, 0xa)]));
    memRead t.mem 0x4000 8 = 11 ∧ memRead t.mem 0x4008 8 = 13 ∧ first4 (t.readV 3) = [10, 0, 12, 0]) := by decide
theorem test_vm_vector_page : trapped 0x0000000be (regs []) = true := by decide

/-! ### Compressed forms (95 section 2.9) -/

theorem test_c_ldi : (after 0x8037b (regs [])).readX 3 = 0xffffffffffffffc0 ∧
    (after 0x7e37b (regs [])).readX 3 = 0x3f ∧ ipOf 0x7e37b [] = 0x105 := by decide
theorem test_c_register : (after 0x48374 (regs [(4, 9)])).readX 3 = 9 ∧
    (after 0x88374 (regs [(3, 5), (4, 7)])).readX 3 = 12 ∧
    (after 0xc8374 (regs [(3, 0x0f), (4, 0x3c)])).readX 3 = 0x0c := by decide
theorem test_c_addi : (after 0xfe375 (regs [])).readX 3 = -1 ∧
    (after 0xf9e75 (regs [(30, 0x8000)])).readX 30 = 0x7fe0 := by decide
theorem test_c_andi_ori : (after 0x1e376 (regs [(3, 0x1234)])).readX 3 = 0x1204 ∧
    (after 0x82377 (regs [(3, 0x100)])).readX 3 = 0x141 := by decide
theorem test_c_shifts : (after 0x0837c (regs [(3, 1)])).readX 3 = 0x10 ∧
    (after 0x7e37c (regs [(3, 0x8000000000000000)])).readX 3 = 0x100000000 ∧
    (after 0x8237c (regs [(3, -8)])).readX 3 = -4 := by decide
theorem test_c_branches : ipOf 0x14378 [] = 0x10a ∧ ipOf 0x14378 [(3, 1)] = 0x105 ∧ ipOf 0xf6379 [(3, 1)] = 0xfb ∧
    ipOf 0xf6379 [] = 0x105 := by decide
theorem test_c_bal : (let t := after 0xe717a { regs [] with ip := 0x300 }; t.readX 1 = 0x305 ∧ t.ip = 0x29c) := by decide
theorem test_c_jal : (let t := after 0x0a174 (regs [(5, 0x2000)]); t.readX 1 = 0x105 ∧ t.ip = 0x2000) := by decide
theorem test_c_ldo_fp : (after 0x04570 ((regs [(29, 0x8000)]).store 0x8010 8 7)).readX 5 = 7 ∧
    (after 0xfe570 ((regs [(29, 0x8000)]).store 0x7ff8 8 7)).readX 5 = 7 := by decide
theorem test_c_sto_sp : memRead (after 0x00573 (regs [(30, 0x8000), (5, 0x77)])).mem 0x8000 8 = 0x77 := by decide
theorem test_c_brk : (let t := after 0x06070 { regs [] with pmstack := 6 };
    t.pmstack = 0x6a ∧ t.causeOf .debug = 3 ∧ t.eip = 0x100) := by decide
theorem test_c_rti : (let t := after 0xf0070 { regs [] with pmstack := 0x6a, eip := 0x120 };
    t.pmstack = 6 ∧ t.ip = 0x120) := by decide
theorem test_c_sync : ipOf 0xfa070 [] = 0x105 := by decide
theorem test_c_unimplemented : trapped 0xc417c (regs []) = true ∧ trapped 0x0007d (regs []) = true := by decide
theorem test_c_after_modifier : trapped 0x48374 (after 0x00c000058 (regs [])) = true := by decide

/-! ### Floating point and graphics (95 section 2.10 and 1.3) -/

/-- 1.5 in x2 and 2.25 in x3. -/
def floats : List (BitVec 5 × Word) := [(2, 0x3ff8000000000000), (3, 0x4002000000000000)]

theorem test_fabs : x1 0x400008134 [(2, 0xc008000000000000)] = 0x4008000000000000 := by decide
theorem test_fsqrt : x1 0x100008134 [(2, 0x4010000000000000)] = 0x4000000000000000 := by decide
theorem test_fadd : x1 0x080308135 floats = 0x400e000000000000 ∧ x1 0x085808135 floats = 0x4004000000000000 := by decide
theorem test_fsub_fmul : x1 0x0a0308135 floats = 0xbfe8000000000000 ∧ x1 0x100308135 floats = 0x400b000000000000 := by
  decide
theorem test_fdiv : x1 0x120308135 [(2, 0x4008000000000000), (3, 0x4000000000000000)] = 0x3ff8000000000000 := by decide
theorem test_fcmp : x1 0x200308135 floats = 0xbff0000000000000 ∧
    x1 0x200308135 [(2, 0x7ff8000000000000)] = 0x4000000000000000 := by decide
theorem test_fcmpb : x1 0x2a0308135 floats = 0x800000000000110e ∧
    x1 0x2a0308135 [(3, 0x8000000000000000)] = 0x1a05 ∧
    x1 0x2a0308135 [(2, 0xc000000000000000), (3, 0x3ff0000000000000)] = 0x8000000000001906 ∧
    x1 0x2a0308135 [(2, 0x7ff8000000000000), (3, 0x3ff0000000000000)] = 0x10 := by decide
theorem test_fbeq : ipOf 0x000206446 [(2, 0x8000000000000000)] = 0x124 := by decide
theorem test_dfadd : trapped 0x080308131 (regs []) = true := by decide
theorem test_clip : x1 0x400008101 [(2, 0x0064000000c80000)] = 1 ∧
    clipWord { Config.default.gfx with width := 640, height := 480 } 0x0064000000c80000 = 0 ∧
    clipWord { Config.default.gfx with width := 640, height := 480 } 0x0064000002800000 = 1 := by decide
theorem test_transform : (after 0x220008101 { regs [(2, 0x0003000000040000)] with
    coeff := #v[0x20000, 0, 0, 0x10000, 0, 0x20000, 0, 0, 0, 0, 0, 0, 1] }).readX 1 = 0x0006000000090000 := by decide
theorem test_rw_coeff : (let t := after 0x7c0308102 (regs [(2, 12), (3, 1)]);
    t.readX 1 = 0 ∧ t.coeff[12] = 1) := by decide
theorem test_plot : (after 0x680308002 (regs [(2, 5), (3, 6)])).plotLog = [(5, 6)] ∧
    trapped 0x68030a002 (regs []) = true := by decide

/-! ### Witnesses: for each statement with hypotheses, operands and states that meet them -/

/-- Two register values, VL = 64, a mask, and one byte of memory. -/
def base : State :=
  { regs [(2, 0x1000), (3, 5)] with vl := 64#64, vm := State.reset.vm.set 3 0xff#64, mem := [⟨0x1000, 0x80#8⟩] }

/-- `base` after the modifiers IMOD (C = x3, D = x4, mask 3), STRIDE (C = #8) and BRMOD (C = x31). -/
def imodState : State := { base with mods :=
  { Mods.none with imod := some ⟨0#3, .x 3#5, .x 4#5, 1#2, 3#3, true⟩, start := some 0xf7#64 } }
def strideState : State := { base with mods :=
  { Mods.none with stride := some ⟨1#15, .imm 8#6, 1#2, 3#3, true⟩, start := some 0xf7#64 } }
def brmodState : State := { base with mods :=
  { Mods.none with brmod := some ⟨0#15, .x 31#5, 0#4, 1#2⟩, start := some 0xf7#64 } }


/-- `base` after STRIDE with the vector register v3, and after IMOD with the operands `c` and `d`. -/
def vectorState : State := { base with mods :=
  { Mods.none with stride := some ⟨0#15, .v 3#5, 0#2, 0#3, false⟩, start := some 0xf7#64 } }
/-- The same with element e of v3 equal to 16 e. -/
def indexState : State := { vectorState with v := vectorState.v.set 3 (Vector.ofFn fun e => BitVec.ofNat 64 (16 * e.val)) }
def operandState (c d : OSpec) : State := { base with mods :=
  { imodState.mods with imod := some ⟨0#3, c, d, 1#2, 3#3, true⟩ } }

/-- A queue of `n` values. -/
def queued (n : Nat) : State := { base with queues := State.reset.queues.set 63 (List.replicate n 7#64) }

theorem witness_EncodeDecode : (Instr.cLdoFp 0x7f#7 1#5).wellFormed = true ∧ (Instr.cBrk 119#7).wellFormed = true ∧
    (Instr.cBrk 122#7).wellFormed = true ∧ (Instr.cBrk 127#7).wellFormed = true ∧
    (Instr.add true ⟨.imm 63#6, .v 31#5, .v 31#5⟩).wellFormed = true := by decide
theorem witness_InstructionLength : (∃ i, decode 0xabcd48374#36 = .ok i) ∧ (∃ i, decode 0x080308102#36 = .ok i) ∧
    (0xabcd48374#36).extractLsb' 4 4 = 0x7#4 := ⟨⟨_, rfl⟩, ⟨_, rfl⟩, rfl⟩
theorem witness_StepRunsDecoded :
    base.irq.level = 0#4 ∧ brmodState.mods.start.isSome = true ∧
    ({ base with irqLines := [⟨1#4, 7#8⟩] } : State).pmstack.getLsbD 0 = false ∧
    ({ base with waiting := true } : State).waiting = true ∧
    decode (fetchWord (base.withFetchWord 36 0x080308102).imem base.ip) = .ok (.add false ⟨.x 3#5, .x 2#5, .x 1#5⟩) ∧
    (Instr.add false ⟨.x 3#5, .x 2#5, .x 1#5⟩).wellFormed = true ∧
    decode (fetchWord (base.withFetchWord 20 0x48374).imem base.ip) = .ok (.cMov 4#5 3#5) ∧
    (∃ e, decode (fetchWord (base.withFetchWord 36 0x0be).imem base.ip) = .error e) :=
  ⟨rfl, rfl, rfl, rfl, rfl, rfl, rfl, ⟨_, rfl⟩⟩
theorem witness_FetchLayout : 0 < 9 ∧ 8 < 9 ∧ 0 < 4 ∧ 3 < 4 ∧
    (base.ip + BitVec.ofNat 64 8).getLsbD 0 = false ∧ (base.ip + BitVec.ofNat 64 7).getLsbD 0 = true := by decide
theorem witness_InterruptEntry :
    (let s := { base with pmstack := 1#64, irqLines := [⟨1#4, 0#8⟩] };
      s.pmstack.getLsbD 0 = true ∧ s.irq.level ≠ 0#4 ∧ s.mods.start = none ∧ s.waiting = false) ∧
    (let s := { base with pmstack := 1#64, irqLines := [⟨15#4, 0xff#8⟩] };
      s.pmstack.getLsbD 0 = true ∧ s.irq.level ≠ 0#4 ∧ s.mods.start = none ∧ s.waiting = false) := by decide
theorem witness_WellFormedKept :
    (base.withFetchWord 36 0x080308102).wf ∧ ∃ t, step (base.withFetchWord 36 0x080308102) = .next t :=
  ⟨{ mem := by decide, imem := by decide, csr := by decide, tlb := by decide, vl := by decide
     queues := by decide, coeff := by decide, mods := fun _ => rfl }, ⟨_, rfl⟩⟩
theorem witness_SpecialStateWriters : (∃ t, exec (.add false ⟨.x 3#5, .x 2#5, .x 1#5⟩) base = .next t) ∧
    (∃ t, exec (.mtvl (.x 3#5)) base = .next t) ∧ ∃ t, exec (.cache ⟨0#12, .x 2#5, 1#3, 2#2⟩) base = .next t :=
  ⟨⟨_, rfl⟩, ⟨_, rfl⟩, ⟨_, rfl⟩⟩
theorem witness_PrivilegeStackChanges : (∃ t, exec (.rex 3#2) base = .next t) ∧
    (∃ t, exec (.brk 3#8) base = .next t) ∧ ∃ t, exec (.rte (.imm 0#6) 9#12) base = .next t :=
  ⟨⟨_, rfl⟩, ⟨_, rfl⟩, ⟨_, rfl⟩⟩
theorem witness_ScalarRegisters : (31#5 : BitVec 5) ≠ 0#5 ∧ (1#5 : BitVec 5) ≠ 0#5 ∧ (0#5 : BitVec 5) ≠ 31#5 := by
  decide
theorem witness_MemoryRead : 0 ≤ 8 ∧ 8 ≤ 8 ∧ 7 < 8 := by decide
theorem witness_MemoryWrite : 8 ≤ 8 ∧ Memory.wf base.mem = true ∧ base.mem ≠ [] := by decide
theorem witness_ExceptionEntry : imodState.mods.start = some 0xf7#64 ∧ base.mods.start = none := by decide
theorem witness_Breakpoints : base.scalarReady ∧ imodState.scalarReady ∧ strideState.scalarReady ∧
    base.mods.start = none := by decide
theorem witness_ExceptionReturn : base.scalarReady ∧ base.mods.start = none ∧ base.waiting = false ∧
    scalarSource (·.setWidth 64) base (.imm 63#6) = some 63#64 ∧
    scalarSource (·.setWidth 64) base (.x 2#5) = some 0x1000#64 ∧ (∀ r, OSpec.imm 63#6 ≠ .v r) ∧
    (∃ t, exec (.rte (.imm 63#6) 9#12) { base with pmstack := 0x1a#64 } = .next t ∧
      ({ t with irqLines := [⟨1#4, 0#8⟩] } : State).irq.level ≠ 0#4) ∧
    (0x1a#64).getLsbD 4 = true ∧ { base with pmstack := 0#64 }.pmstack = 0#64 :=
  ⟨by decide, rfl, rfl, rfl, rfl, fun _ => nofun, ⟨_, rfl, by decide⟩, rfl, rfl⟩
theorem witness_BreakThenReturn : base.mods = Mods.none ∧ ∃ t u, exec (.brk 255#8) base = .next t ∧
    exec (.rte (.imm 0#6) 9#12) t = .next u := ⟨rfl, _, _, rfl, rfl⟩
theorem witness_Redirection : base.scalarReady ∧ (3#2).toNat < base.mode.index.val ∧
    (let u := { base with pmstack := 0#64 };
      u.scalarReady ∧ u.mode.index.val ≤ (0#2 : BitVec 2).toNat ∧ u.mode.index.val ≤ (3#2).toNat) := by decide
theorem witness_CsrInstructions : base.scalarReady ∧ sparseWf 0 65536 base.csr = true ∧
    base.mode.index.val < ((0x5000#16).extractLsb' 12 4).toNat ∧
    ((0x4fff#16).extractLsb' 12 4).toNat ≤ base.mode.index.val := by decide
theorem witness_InterruptPolling : base.scalarReady ∧ base.mods.start = none ∧ base.irq.level = 0#4 ∧
    ({ base with irqLines := [⟨1#4, 7#8⟩] } : State).irq.level ≠ 0#4 := by decide
theorem witness_NoOperations : base.mods.brmod = none ∧ base.mods.start = none ∧
    ((RSpec.x 2#5).legal false && (RSpec.x 1#5).agrees false && base.modsLegal false) = true ∧
    (RSpec.x 1#5).agrees true = false ∧ vectorState.mods.brmod = none ∧ vectorState.modsLegal false = false ∧
    vectorState.modsLegal true = true := by decide
theorem queued_length (n : Nat) : ((queued n).queue 63).length = n := List.length_replicate

theorem witness_HardwareQueues : (queued 1022).scalarReady ∧ (queued 1023).scalarReady ∧ ((queued 1022).queue 63).length < 1023 ∧
    ((queued 1023).queue 63).length ≤ 1023 ∧ ¬((queued 1023).queue 63).length < 1023 ∧
    (63#6).toNat = (0x1000#64 + 63#64).toNat % 64 ∧
    scalarSource (·.signExtend 64) base (.imm 63#6) = some (BitVec.allOnes 64) ∧
    (63#6).toNat = (BitVec.allOnes 64).toNat % 64 :=
  ⟨⟨rfl, rfl⟩, ⟨rfl, rfl⟩, by rw [queued_length]; decide, by rw [queued_length], by rw [queued_length]; decide, rfl,
    rfl, rfl⟩
theorem witness_HardwareQueues_words : (0x10030a007#36).extractLsb' 0 8 = 0x07#8 ∧
    (0x10030a007#36).extractLsb' 29 7 ∈ [0x08#7, 0x0c#7] ∧ (0x10030a007#36).getLsbD 13 = true ∧
    (0x1e203c107#36).extractLsb' 0 8 = 0x07#8 ∧
    (0x1e203c107#36).extractLsb' 29 7 ∈ [0x09#7, 0x0a#7, 0x0b#7, 0x0d#7, 0x0e#7, 0x0f#7] ∧
    (0x1e203c107#36).extractLsb' 25 2 = 1#2 := by decide
theorem witness_TlbReadWrite : (let s := { base with tlb := [(4095, 9#64)] };
    s.scalarReady ∧ sparseWf 0 4096 s.tlb = true) ∧ 3 < 4 ∧ 1023 < 1024 := by decide
theorem witness_ModifierWords : imodState.mods.imod.isSome = true ∧ base.mods.imod.isSome = false ∧
    base.mods.exi[4].isSome = false := by decide
theorem witness_ExecRunsRegister :
    (let s := regs [(2, 0x080308102)]; s.mods.brmod = none ∧
      decode ((s.readX 2#5).extractLsb' 0 36) = .ok (.add false ⟨.x 3#5, .x 2#5, .x 1#5⟩)) ∧
    (Instr.add false ⟨.x 3#5, .x 2#5, .x 1#5⟩).runsInExec = true ∧
    (0x080308102#36 : BitVec 36) = 0x04#7 ++ 0#2 ++ 0#2 ++ 3#5 ++ 0#1 ++ 2#5 ++ 0#1 ++ 1#5 ++ 0#1 ++ 0x02#7 ∧
    decode (((regs [(2, 0xf13579b50)]).readX 2#5).extractLsb' 0 36) = .ok (.exi0 0xf13579b#28) ∧
    (Instr.exi0 0xf13579b#28).runsInExec = false ∧
    (∃ e, decode (((regs [(2, 0x0be)]).readX 2#5).extractLsb' 0 36) = .error e) :=
  ⟨⟨rfl, rfl⟩, rfl, rfl, rfl, rfl, ⟨_, rfl⟩⟩

/-- IMOD's D is x4, which holds the word `w`. -/
def mystState (w : Word) : State := { (base.writeX 4#5 w) with mods := imodState.mods }

/-- The constants 4 and 2 are words of the roots 04h and 02h, and a vector register is none; a word with root 02h
and function code 03h is of no defined function, one with 38h decodes to no scalar instruction, and 1Ah with 2 in
bits 35:32 is reserved. -/
theorem witness_MystRunsWord_operands :
    (operandState (.x 3#5) (.imm 4#6)).modsLegal false = true ∧
    scalarSource (·.signExtend 64) (operandState (.x 3#5) (.imm 4#6)) (.imm 4#6) = some 4#64 ∧
    rootOf ((4#64 : Word).extractLsb' 0 36) = 0x04#7 ∧
    scalarSource (·.signExtend 64) (operandState (.x 3#5) (.imm 2#6)) (.imm 2#6) = some 2#64 ∧
    rootOf ((2#64 : Word).extractLsb' 0 36) = 0x02#7 ∧ funcOf ((2#64 : Word).extractLsb' 0 36) ∈ r2Funcs ∧
    (operandState (.x 3#5) (.v 4#5)).modsLegal false = false ∧
    (operandState (.v 3#5) (.imm 4#6)).modsLegal false = false ∧
    funcOf (0x060308102#36) = 0x03#7 ∧ 0x03#7 ∉ r2Funcs ∧ 0x1f#7 ∉ r2Funcs ∧
    funcOf (0x700308102#36) = 0x38#7 ∧ 0x38#7 ∈ r2Funcs ∧
    (∃ e, decode ((0x700308102#36).extractLsb' 27 9 ++ (OSpec.x 3#5).enc ++ (RSpec.x 2#5).enc ++
      (RSpec.x 1#5).enc ++ 0#1 ++ 0x02#7) = .error e) ∧
    0x1a#7 ∈ riRoots ∧
    (∃ e, decode (0x2000#16 ++ (RSpec.x 2#5).enc ++ (RSpec.x 1#5).enc ++ 0#1 ++ 0x1a#7) = .error e) :=
  ⟨rfl, rfl, rfl, rfl, rfl, by decide, rfl, rfl, rfl, by decide, by decide, rfl, by decide, ⟨_, rfl⟩, by decide,
    ⟨_, rfl⟩⟩

theorem witness_MystRunsWord : base.mods.brmod = none ∧ base.mods.imod = none ∧
    (mystState 0x006408104#64).scalarReady ∧
    (mystState 0x006408104#64).mods.imod = some ⟨0#3, .x 3#5, .x 4#5, 1#2, 3#3, true⟩ ∧
    (mystState 0#64).mods.exi = Mods.none.exi ∧
    rootOf ((mystState 0x006408104#64).readX 4#5 |>.extractLsb' 0 36) = 0x04#7 ∧ 0x04#7 ∈ riRoots ∧
    0x3e#7 ∉ riRoots ∧
    decode (5#16 ++ (RSpec.x 2#5).enc ++ (RSpec.x 1#5).enc ++ 0#1 ++ 0x04#7) =
      .ok (.addImmediate false ⟨5#16, .x 2#5, .x 1#5⟩) ∧
    rootOf ((mystState 0x080308102#64).readX 4#5 |>.extractLsb' 0 36) = 0x02#7 ∧
    funcOf ((mystState 0x080308102#64).readX 4#5 |>.extractLsb' 0 36) = 0x04#7 ∧
    decode ((0x080308102#36).extractLsb' 27 9 ++ (OSpec.x 3#5).enc ++ (RSpec.x 2#5).enc ++ (RSpec.x 1#5).enc ++
      0#1 ++ 0x02#7) = .ok (.add false ⟨.x 3#5, .x 2#5, .x 1#5⟩) :=
  ⟨rfl, rfl, ⟨rfl, rfl⟩, rfl, rfl, rfl, by decide, by decide, rfl, rfl, rfl, rfl⟩
theorem witness_MisplacedModifiers : brmodState.mods.brmod.isSome = true ∧ (Instr.nop false).isShort = false ∧
    (Instr.nop false).isModifier = false ∧ takesBrmod (.nop false) = false ∧
    (∀ a, Instr.nop false ≠ .exec a) ∧ imodState.mods.start.isSome = true ∧ Instr.cRti.isShort = true ∧
    VectorModifier vectorState ∧ VectorModifier (operandState (.v 3#5) (.imm 0#6)) ∧
    VectorModifier (operandState (.imm 0#6) (.v 3#5)) ∧ (Instr.nop false).encode.getLsbD 7 = false ∧
    (Instr.nop false).encode.extractLsb' 0 7 ≠ 0x3e#7 :=
  ⟨rfl, rfl, rfl, rfl, fun _ => nofun, rfl, rfl, .inr ⟨_, _, rfl, rfl⟩, .inl ⟨_, _, rfl, .inl rfl⟩,
    .inl ⟨_, _, rfl, .inr rfl⟩, rfl, by decide⟩
theorem witness_UnimplementedRows : unimplementedRow .setto = true ∧ unimplementedRow .c74hReserved = true := by
  decide
theorem witness_OneSourceInteger : base.mods.brmod = none ∧ (RSpec.x 2#5).legal false = true ∧
    (RSpec.v 2#5).legal true = true ∧ (RSpec.v 2#5).legal false = false := by decide
theorem witness_TwoSourceInteger : (∃ im, imodState.mods.imod = some im ∧ im.a.getLsbD 0 = true) ∧
    (let s : State := { imodState with mods := { imodState.mods with imod := some ⟨0#3, .x 3#5, .x 4#5, 2#2, 3#3, true⟩ } };
      ∃ im, s.mods.imod = some im ∧ im.a.getLsbD 0 = false) ∧ base.mods.imod = none :=
  ⟨⟨_, rfl, rfl⟩, ⟨_, rfl, rfl⟩, rfl⟩
theorem witness_TwoSourceInteger_element : imodState.mods.brmod = none ∧ imodState.imodMask = (0xff#64, true) ∧
    (OSpec.imm 63#6).legal true = true ∧ (OSpec.v 2#5).legal true = true ∧ (OSpec.v 2#5).legal false = false := by decide
theorem witness_ImmediateInteger : base.mods.brmod = none ∧ (RSpec.x 2#5).legal false = true := by decide
theorem witness_ExtendedConstants : base.mods.exi[0] = none ∧ base.mods.exi[1] = none ∧ base.mods.stride = none ∧
    strideState.mods.stride = some ⟨1#15, .imm 8#6, 1#2, 3#3, true⟩ ∧ strideState.mods.exi[0] = none ∧
    strideState.mods.exi[1] = none ∧
    (let s := { base with mods := { Mods.none with exi := #v[some 1#28, none, none, none, some 3#28] } };
      s.mods.exi[0] = some 1#28 ∧ s.mods.exi[1] = none ∧ s.mods.stride = none) ∧
    (let s := { base with mods := { Mods.none with exi := #v[some 1#28, some 2#28, none, none, some 3#28] } };
      s.mods.exi[0] = some 1#28 ∧ s.mods.exi[1] = some 2#28 ∧ s.mods.stride = none) := by decide
theorem witness_Divisions : (1#64 : Word) ≠ 0#64 ∧ BitVec.allOnes 64 ≠ 0#64 ∧ base.mods.brmod = none := by decide

/-- The first operation of the table, MUL, does not trap within 64 bits and does just beyond. -/
theorem witness_TrappingArithmetic : base.mods.brmod = none ∧
    (let a := 0x4000000000000000#64; a.toInt * (1#64).toInt < 2 ^ 63 ∧ 2 ^ 63 ≤ a.toInt * (2#64).toInt ∧
      ¬a.toInt * (-2#64).toInt < -(2 ^ 63)) ∧
    (2#2).getLsbD 1 = true ∧ (1#2).getLsbD 0 = true ∧ base.readX 0#5 = 0#64 ∧
    (0 : Fin 64).val < base.vl.toNat ∧ (63 : Fin 64).val < base.vl.toNat ∧
    base.imodMask.1.getLsbD 63 = true := by decide
theorem witness_BitMatricesAndBytes : base.mods.brmod = none ∧ 0 < 8 ∧ 7 < 8 := by decide
theorem witness_FieldSearches : base.mods.brmod = none ∧ (OSpec.x 3#5).legal true = true ∧
    (OSpec.v 3#5).legal false = false := by decide
theorem witness_TernaryOperations : imodState.mods.brmod = none ∧ imodState.specC = some (.x 3#5) ∧
    base.specC = none ∧ imodState.modsLegal false = true ∧ vectorState.modsLegal false = false := by decide
theorem witness_BitFields : imodState.mods.brmod = none ∧ imodState.specD = some (.x 4#5) ∧ 63 < 64 ∧
    fieldBits 63#64 = 64 ∧ fieldBits 64#64 = 1 := by decide

/-- C is 5 and A is 5: on the lower end, inside where it is closed and outside where it is open. -/
theorem witness_BoundsChecks : imodState.mods.brmod = none ∧ (RSpec.x 3#5).legal false = true ∧
    imodState.modsLegal false = true ∧ vectorState.modsLegal false = false ∧
    (RSpec.v 3#5).legal false = false ∧
    (optValue (·.signExtend 64) imodState 0 imodState.specC).toInt = 5 ∧
    ((RSpec.x 3#5).value imodState 0).toInt = 5 ∧ ¬((5 : Int) < 5) ∧ (5 : Int) ≤ 5 := by decide
theorem witness_FloatOneSource : base.mods.brmod = none ∧ (RSpec.x 2#5).legal false = true := by decide
theorem witness_FloatArithmetic : imodState.mods.brmod = none ∧ imodState.modsLegal false = true := by decide
theorem witness_FloatComparison : fpNanPattern 0x7ff0000000000001#64 ∧ ¬fpNanPattern 0x7ff0000000000000#64 ∧
    ¬fpNanPattern 0x8000000000000000#64 := by
  unfold fpNanPattern; decide
theorem witness_FloatRounding : fpFinitePattern 0x7fefffffffffffff#64 ∧ fpFinitePattern 1#64 ∧
    fpFinitePattern 0x8000000000000000#64 ∧ fpUnits 1#64 ≠ 0 ∧ 0 ≤ fpUnits 1#64 ∧
    fpUnits 0x8000000000000000#64 = 0 ∧ ¬fpNanPattern 0x7ff0000000000000#64 := by
  unfold fpFinitePattern fpNanPattern; decide
theorem witness_FloatSpecialCases : fpNanPattern 0x7ff8000000000000#64 ∧ fpNanPattern 0xfff0000000000001#64 ∧ fpFinitePattern 1#64 ∧
    fpUnits 1#64 + fpUnits 0x8000000000000001#64 = 0 ∧ fpUnits 1#64 ≠ 0 ∧ fpUnits 0#64 = 0 ∧
    fpUnits 0x8000000000000001#64 < 0 ∧ ¬fpNanPattern 0xfff0000000000000#64 ∧
    ¬(fpFinitePattern 1#64 ∧ fpFinitePattern (infinity true)) := by
  unfold fpFinitePattern fpNanPattern; decide
theorem witness_GraphicsOperations : (let s := regs [(2, 12), (3, 13), (4, 0)];
    s.mods.brmod = none ∧ (s.readX 2#5).toNat = (12 : Fin 13).val ∧ 13 ≤ (s.readX 3#5).toNat ∧
    (s.readX 4#5).toNat = (0 : Fin 13).val) ∧
    (RSpec.x 2#5).legal false = true ∧ (OSpec.imm 63#6).legal false = true ∧
    ((RSpec.x 2#5).legal false && (OSpec.imm 63#6).legal false && (RSpec.x 1#5).agrees false &&
      (regs []).modsLegal false) = true ∧
    (RSpec.x 1#5).agrees true = false ∧ vectorState.modsLegal false = false := by decide
theorem witness_ConditionalBranches : base.scalarReady ∧
    scalarSource (·.signExtend 64) base (.v 2#5) = none ∧
    scalarSource (·.signExtend 64) base (.imm 32#6) = some 0xffffffffffffffe0#64 ∧
    (0x0000000c0#36).extractLsb' 4 4 = 0xc#4 ∧ (0xfffffffcf#36).extractLsb' 4 4 = 0xc#4 := by decide
theorem witness_JumpsAndModifiedBranches : base.scalarReady ∧ brmodState.modsLegal false = true ∧
    brmodState.mods.brmod = some ⟨0#15, .x 31#5, 0#4, 1#2⟩ ∧
    scalarSource (·.setWidth 64) brmodState (.imm 63#6) = some 63#64 := by decide
theorem witness_MaskOperations : base.mods.brmod = none ∧ (1#2 : BitVec 2) ≠ 0#2 ∧ (3#2 : BitVec 2) ≠ 0#2 ∧
    0 < 64 ∧ 63 < 64 := by decide
theorem witness_VectorSelections : base.mods.brmod = none ∧ activeBelow base (base.readM 3#3) = [0, 1, 2, 3, 4, 5, 6, 7] := by
  decide
theorem witness_VectorSlidesAndElements : base.mods.brmod = none ∧
    scalarSource (·.setWidth 64) base (.imm 63#6) = some 63#64 := by decide
theorem witness_ScalarLoads : strideState.scalarReady ∧ strideState.displacement 0xfff#12 = 0x1fff#64 := by decide
theorem witness_ScalarStores : base.scalarReady ∧ imodState.scalarReady ∧ Memory.wf base.mem = true ∧
    storeIndex imodState = some 5#64 ∧ storeIndex base = some 0#64 ∧ storeIndex (operandState (.v 4#5) (.imm 0#6)) = none ∧
    scalarSource (·.setWidth 64) base (.imm 63#6) = some 63#64 := by decide
theorem witness_MultipleTransfers : (let s := { base with mods := { Mods.none with reglist := some 0x20000001#30 } };
    s.scalarReady ∧ Memory.wf s.mem = true ∧ inList (regList s) 1#5 = true ∧ inList (regList s) 30#5 = true ∧
    inList (regList s) 31#5 = false ∧ listIndex (regList s) 31 = 2) := by decide
theorem witness_CacheCommands : base.scalarReady ∧ Memory.wf base.mem = true ∧ Memory.wf base.imem = true ∧
    5#3 ≤ (5#3 : BitVec 3) ∧ (2#2 : BitVec 2) ≠ 3#2 ∧ (4#3 : BitVec 3) < 5#3 := by decide
theorem witness_StackOperations : base.scalarReady ∧ Memory.wf base.mem = true ∧
    scalarSource (·.signExtend 64) base (.imm 32#6) = some 0xffffffffffffffe0#64 ∧
    scalarSource (·.signExtend 64) base (.v 3#5) = none := by decide
theorem witness_VectorLoads : strideState.mods.brmod = none ∧ elementBytes 7#4 = some 8 ∧ elementBytes 4#4 = none ∧
    (strided strideState 0x1000#64).map (· 2) = some 0x1010#64 ∧
    (strided strideState 0x1000#64).isSome = true ∧ (indexed strideState 0#64).isNone = true ∧
    transferMask strideState = 0xff#64 ∧ transferZ strideState = true ∧
    indexState.mods.brmod = none ∧ (indexed indexState 0x1000#64).map (· 63) = some 0x13f0#64 := by decide
theorem witness_VectorStores : strideState.mods.brmod = none ∧ Memory.wf strideState.mem = true ∧
    (strided strideState 0x1000#64).map (· 63) = some 0x11f8#64 ∧ elementBytes 0#4 = some 1 ∧
    (indexed strideState 0x1000#64).isNone = true ∧ indexState.mods.brmod = none ∧
    Memory.wf indexState.mem = true ∧ (strided indexState 0x1000#64).isNone = true ∧
    (indexed indexState 0x1000#64).map (· 63) = some 0x13f0#64 := by decide
theorem witness_CompressedInstructions : base.mods.start = none ∧ Memory.wf base.mem = true := by decide

/-! Machines with parameters other than the defaults (00 R6). -/

/-- 32 elements, the high byte first, no byte addresses from 2000h on. -/
@[reducible] def otherParams : Config.Params :=
  { Config.default with
    vlmax := 32, vlmax_pos := by decide, byteOrder := .big, resetIp := 0x100
    memRange := fun a => decide (a.toNat < 0x2000) }

/-- A translation that faults a fetch of byte 84h with cause 55h, and one that moves the loads and stores of a state whose
x30 is 7FF8h. -/
@[reducible] def mappedParams : Config.Params :=
  { Config.default with
    translate := fun s a k =>
      if k = .fetch then (if a = 0x84 then .error 0x55 else .ok a)
      else if s.x[30] = 0x7ff8 then .ok (a + 0x1000) else .ok a }

/-- A decimal arithmetic whose square root is 3 and whose product is 5. -/
@[reducible] def numberParams : Config.Params :=
  { Config.default with
    dfpOps := some fun code l _ => if code = 8 then (match l with | [_] => 3 | _ => 5) else 0 }

/-- A machine after reset at IP `ip`, with a value in x2, 102h in x3 and one word to run. -/
def otherState (P : Config.Params) (ip : Word) (w : BitVec 36) (a : Word) : State P :=
  let s := ((State.resetOf P).writeX 2 a).writeX 3 0x102
  { s with ip := ip, imem := storeWord s.imem ip w 9 }

/-- The next state of such a machine; `none` where an access is outside MEM_RANGE. -/
noncomputable def otherAfter {P : Config.Params} (s : State P) : Option (State P) :=
  match stepOf s with
  | .next t => some t
  | .fault _ => none
  | .refused _ => none

-- mtvl x2 (47 R618) clamps to VLMAX.
theorem test_other_mtvl : (otherAfter (otherState otherParams 0x100 0x24000803e 1000)).map (·.vl) = some 32 := by decide
-- stw x3,5[x2] with the high byte at the lower address (20 R74), and outside MEM_RANGE (20 R82).
theorem test_other_store :
    (otherAfter (otherState otherParams 0x100 0x100308568 0x1000)).map (·.mem) = some [(0x1005, 1), (0x1006, 2)] ∧
    (otherAfter (otherState otherParams 0x100 0x100308568 0x1ffa)).isNone = true := by decide
-- The nine nybbles from FFh on end in byte 83h, those from 100h on in byte 84h; past 3FFFh they leave MEM_RANGE.
theorem test_other_fetch :
    (otherAfter (otherState mappedParams 0xff 0x24000803e 4)).map (·.vl) = some 4 ∧
    (otherAfter (otherState mappedParams 0x100 0x24000803e 4)).map (·.cause[4]) = some 0x55 ∧
    (otherAfter (otherState otherParams 0x3ff7 0x24000803e 4)).isSome = true ∧
    (otherAfter (otherState otherParams 0x3ff8 0x24000803e 4)).isNone = true := by decide
-- push x3 (44 R447) to 7FF8h: TRANSLATE sees the stack pointer before it (log 10).
theorem test_other_push : (let s := (otherState mappedParams 0 0x10000de6f 0).writeX 30 0x8000
    (otherAfter s).map (·.mem)) = some [(0x7ff8, 2), (0x7ff9, 1)] := by decide
-- dfsqrt x1,x2 and dfmul x1,x2,x3 share the function code 08h (42 R343, R351, R356).
theorem test_other_numbers :
    (otherAfter (otherState numberParams 0 0x100008130 9)).map (·.readX 1) = some 3 ∧
    (otherAfter (otherState numberParams 0 0x100308131 9)).map (·.readX 1) = some 5 := by decide

end Sys2Proof.Tests
end

section
/-! SUPPORT. The conditional branches without a modifier (45 R482, R485 to R490): the opcode of a branch word, the
reserved opcodes C0h to CFh, and the effect of a branch, each said once for the whole family. -/

namespace Sys2Proof

/-! ### Opcodes of the flow page -/

/-- The 8-bit opcode is the vector indicator over the root opcode (30 R101). -/
theorem extract_opcode (w : BitVec 36) : w.extractLsb' 0 8 = w.extractLsb' 7 1 ++ rootOf w :=
  (ext_join w 0 7 1).symm

theorem Branch.enc_opcode (r : BitVec 7) (o : Branch) : (Branch.enc r o).extractLsb' 0 8 = 0#1 ++ r := by
  have hv : (Branch.enc r o).extractLsb' 7 1 = 0#1 := by
    simp (disch := decide) only [Branch.enc, ext_hi, ext_lo, Nat.reduceSub, ext_all]
  rw [extract_opcode, hv, Branch.enc_root]

/-- Every row from 40h to 4Fh stands on the scalar page only; its cell of the vector page is blank. -/
theorem decodeRoot_vector_flow {root : Nat} (hlo : 0x40 ≤ root) (hhi : root < 0x50) (func func4 : Nat)
    (w : BitVec 36) : decodeRoot root func func4 true w = .error (.blankOpcode (opOf w)) := by
  interval_cases root <;> rfl

/-- With bits 7:4 = Ch the vector indicator is set and the root opcode lies in 40h to 4Fh. -/
theorem flow_fields {w : BitVec 36} (h : w.extractLsb' 4 4 = 0xc#4) :
    vBit w = true ∧ 0x40 ≤ (rootOf w).toNat ∧ (rootOf w).toNat < 0x50 := by
  have hnat : w.toNat / 16 % 16 = 12 := by
    simpa [BitVec.toNat_eq, Nat.shiftRight_eq_div_pow] using h
  have hv : w.toNat / 128 % 2 = 1 := by omega
  refine ⟨?_, ?_⟩
  · simpa [vBit, bit, BitVec.toNat_eq, Nat.shiftRight_eq_div_pow] using hv
  · simp only [rootOf, BitVec.extractLsb'_toNat, Nat.shiftRight_zero]
    omega

/-- Opcodes C0h to CFh are reserved (45 R482). -/
theorem decode_vector_flow {w : BitVec 36} (h : w.extractLsb' 4 4 = 0xc#4) :
    decode w = .error (.blankOpcode (opOf w)) := by
  obtain ⟨hv, hlo, hhi⟩ := flow_fields h
  rw [decode_arm rfl hv, decodeRoot_vector_flow hlo hhi]

end Sys2Proof

namespace Sys2Proof.Machine

/-! ### The effect -/

/-- A conditional branch with no modifier in its way follows the rule of 45 R482. -/
theorem branch_alone {s : State} (h : s.scalarReady) (ext : BitVec 6 → Word) (o : Branch)
    (cond : Word → Word → Bool) : BranchRule (branch ext o cond s) s o ext cond := by
  obtain ⟨hbrmod, hlegal⟩ := h
  unfold BranchRule branch
  rw [scalarSource_eq ext s o.b Config.default.first, hbrmod, hlegal]
  cases o.b.legal false with
  | true => exact onlyIp_jump ..
  | false => exact unimplemented_raised s

/-- What the statement asks of one row: an instruction whose word has root opcode `r` in branch format, that
decodes back, and that branches on `cond`. -/
theorem branch_row {mk : Branch → Instr} {r : BitVec 7} {ext : BitVec 6 → Word} {cond : Word → Word → Bool}
    (hencode : ∀ o, (mk o).encode = Branch.enc r o) (hdecode : ∀ o, decode (mk o).encode = .ok (mk o))
    (hexec : ∀ o (s : State), exec (mk o) s = branch ext o cond s) (o : Branch) :
    (mk o).encode.extractLsb' 0 8 = 0#1 ++ r ∧ decode (mk o).encode = .ok (mk o) ∧
      ∀ s : State, s.scalarReady → BranchRule (exec (mk o) s) s o ext cond := by
  refine ⟨?_, hdecode o, fun s hs => ?_⟩
  · rw [hencode, Branch.enc_opcode]
  · rw [hexec]
    exact branch_alone hs ext o cond

/-! The conditions of the model's branches in the words of 45 R486, R488 and R490: not equal, and not less. -/

theorem exec_bne_cond (o : Branch) (s : State) :
    exec (.bne o) s = branch (·.signExtend 64) o (fun a b => decide (a ≠ b)) s := by
  have hcond (a b : Word) : (a != b) = decide (a ≠ b) := by simp [bne, beq_eq_decide]
  simp only [exec_bne, execBne, hcond]
  rfl

theorem exec_bge_cond (o : Branch) (s : State) :
    exec (.bge o) s = branch (·.signExtend 64) o (fun a b => decide (b.toInt ≤ a.toInt)) s := by
  simp only [exec_bge, execBge, not_ltS]
  rfl

theorem exec_bgeu_cond (o : Branch) (s : State) :
    exec (.bgeu o) s = branch (·.setWidth 64) o (fun a b => decide (b.toNat ≤ a.toNat)) s := by
  simp only [exec_bgeu, execBgeu, not_ltU]
  rfl

/-- Settles O48: each row of the table by `branch_row`, the reserved opcodes by `decode_vector_flow`, and the
example words by running the decoder. -/
theorem conditionalBranches : Obligations.ConditionalBranches := by
  refine ⟨?_, fun w hw => ⟨_, decode_vector_flow hw⟩, rfl, rfl, rfl, rfl, rfl, rfl⟩
  simp only [branchTable, List.forall_mem_cons, List.not_mem_nil, false_implies, implies_true, and_true]
  refine ⟨?beq, ?bne, ?blt, ?bge, ?bltu, ?bgeu⟩
  case beq =>
    exact branch_row (r := 0x4e#7) (fun _ => rfl) (fun o => Laws.RoundTrip.beq o rfl) (fun _ _ => rfl)
  case bne =>
    exact branch_row (r := 0x4f#7) (fun _ => rfl) (fun o => Laws.RoundTrip.bne o rfl) exec_bne_cond
  case blt =>
    exact branch_row (r := 0x48#7) (fun _ => rfl) (fun o => Laws.RoundTrip.blt o rfl) (fun _ _ => rfl)
  case bge =>
    exact branch_row (r := 0x49#7) (fun _ => rfl) (fun o => Laws.RoundTrip.bge o rfl) exec_bge_cond
  case bltu =>
    exact branch_row (r := 0x4a#7) (fun _ => rfl) (fun o => Laws.RoundTrip.bltu o rfl) (fun _ _ => rfl)
  case bgeu =>
    exact branch_row (r := 0x4b#7) (fun _ => rfl) (fun o => Laws.RoundTrip.bgeu o rfl) exec_bgeu_cond

end Sys2Proof.Machine
end

section
/-! SUPPORT. The return from an exception (60 R757): what RTE and c.RTI answer, the semaphores they clear, the enable
that the pop puts back, and the entry shifted in at the top of PMSTACK. -/

namespace Sys2Proof.Machine

/-! ### What RTE and c.RTI answer -/

/-- RTE with no modifier in its way and a legal source is `returnExc` in every mode. -/
theorem exec_rte_next {s : State} {b : OSpec} {n : Word} (h : s.scalarReady)
    (hb : scalarSource (·.setWidth 64) s b = some n) (offset : BitVec 12) :
    exec (.rte b offset) s = .next (s.returnExc n (offset.setWidth 64)) := by
  obtain ⟨hbrmod, hmods⟩ := h
  rw [scalarSource_eq _ s b Config.default.first, Option.ite_none_right_eq_some] at hb
  obtain ⟨hlegal, hvalue⟩ := hb
  obtain rfl := Option.some.inj hvalue
  rw [exec_rte, execRte, plain_next hbrmod hmods, if_pos hlegal]
  rfl

theorem exec_cRti_next {s : State} (h : s.mods.start = none) :
    exec .cRti s = .next (s.returnExc 0#64 0#64) := short_next h

theorem exists_scalarSource {b : OSpec} (hb : ∀ r, b ≠ .v r) (ext : BitVec 6 → Word) (s : State) :
    ∃ n, scalarSource ext s b = some n := by
  cases b with
  | x r => exact ⟨_, rfl⟩
  | imm c => exact ⟨_, rfl⟩
  | v r => exact absurd rfl (hb r)

/-! ### The state after a return -/

/-- A return changes PMSTACK, the semaphores and IP, and ends the group. -/
theorem State.returnExc_eq (s : State) (b f : Word) : s.returnExc b f = { s with
    pmstack := s.pmstack >>> 4, semaphore := (s.returnExc b f).semaphore, ip := s.eip + f, mods := Mods.none } := rfl

theorem State.returnExc_semaphore (s : State) (b f : Word) (k : Fin 64) :
    (s.returnExc b f).semaphore[k] = if k.val = 0 ∨ k.val = b.toNat % 64 then false else s.semaphore[k] := by
  show ((s.semaphore.set 0 false).set (b.toNat % 64) false (Nat.mod_lt _ (by decide)))[k.val] = _
  rw [Vector.getElem_set, Vector.getElem_set]
  by_cases h0 : k.val = 0 <;> by_cases hb : k.val = b.toNat % 64 <;> simp [h0, hb, eq_comm]

/-- c.RTI names no semaphore but number 0, and goes to EIP itself. -/
theorem State.returnExc_zero (s : State) : s.returnExc 0#64 0#64 = { s with
    pmstack := s.pmstack >>> 4, semaphore := s.semaphore.set 0 false, ip := s.eip, mods := Mods.none } := by
  have hsem : (s.returnExc 0#64 0#64).semaphore = s.semaphore.set 0 false := Vector.set_set ..
  rw [State.returnExc_eq, hsem, BitVec.add_zero]

/-- The pop makes the enable of the interrupted entry, bit 4, current again. -/
theorem State.returnExc_ie (s : State) (b f : Word) : (s.returnExc b f).ie = s.pmstack.getLsbD 4 := by
  rw [State.ie_eq, State.returnExc_pmstack, BitVec.getLsbD_ushiftRight]

theorem interruptTaken_iff (s : State) : s.interruptTaken = true ↔
    s.ie = true ∧ s.irq.level ≠ 0#4 ∧ s.inGroup = false ∧ s.waiting = false := by
  simp [State.interruptTaken, and_assoc]

/-! ### The privilege stack -/

theorem iterate_ushiftRight (k n : Nat) (p : Word) : (fun q : Word => q >>> k)^[n] p = p >>> (n * k) := by
  induction n with
  | zero => simp
  | succ n ih => rw [Function.iterate_succ_apply', ih, ← BitVec.shiftRight_add, Nat.succ_mul]

theorem user_of_pmstack_zero {s : State} (h : s.pmstack = 0#64) : s.mode = .user ∧ s.ie = false := by
  constructor
  · unfold State.mode
    rw [h]
    rfl
  · rw [State.ie_eq, h]
    rfl

/-- Settles O18: RTE and c.RTI both answer `returnExc`, whose fields the lemmas above give; sixteen pops shift
PMSTACK by its whole width. -/
theorem exceptionReturn : Obligations.ExceptionReturn := by
  refine ⟨?rte, ?cRti, ?interrupt, ?sixteen, fun s => user_of_pmstack_zero⟩
  case rte =>
    intro s b offset n hs hn
    exact ⟨_, s.returnExc_semaphore n (offset.setWidth 64), exec_rte_next hs hn offset⟩
  case cRti =>
    intro s hs
    rw [exec_cRti_next hs, State.returnExc_zero]
  case interrupt =>
    intro s t b offset lines hs hwait ht hb
    obtain ⟨n, hn⟩ := exists_scalarSource hb (·.setWidth 64) s
    obtain rfl : s.returnExc n (offset.setWidth 64) = t := by
      rw [exec_rte_next hs hn offset] at ht
      injection ht
    have hie := s.returnExc_ie n (offset.setWidth 64)
    exact ⟨hie, fun henabled hlevel => (interruptTaken_iff _).2 ⟨hie.trans henabled, hlevel, rfl, hwait⟩⟩
  case sixteen =>
    intro p
    rw [iterate_ushiftRight]
    exact BitVec.ushiftRight_eq_zero (le_refl 64)

end Sys2Proof.Machine
end

section
/-! SUPPORT. Encoding and decoding, for the whole opcode table (30 R100 to R140, 47 R600, 48 R670 to R707). -/

namespace Sys2Proof.Laws.RoundTrip

/-- The round trip of every row: one argument of the recursor for each constructor, the lemma of its name. -/
theorem statement_of_instr (i : Instr) : Statement i :=
  Instr.rec (motive := Statement)
    brk cntlz cntlo cntpop com not neg abs nabs sqrt tst zxb zxw zxt ptrinc transform sxb sxw sxt clip v2bits
    bits2v vcmprss vcidx vscan and or xor add sub nand nor xnor mulu mulh divu rem remu remsu mulsu perm dif
    wydndx mulf mulsuh muluh cmp u21ndx seq sne min max slt sge sltu sgeu mor mxor mort mxort plot sll srl sra
    rol ror mul div divsu myst rwCoeff slli srli srai roli rori mulfDuplicate vsllv vsrlv vex veins mux sllp
    ptrdif blend fdp sllpi chkR3Form dep ext extu ffo addImmediate subfImmediate mulImmediate andImmediate
    orImmediate xorImmediate muluImmediate divImmediate divuImmediate divsuImmediate mulfImmediate
    mulsuImmediate permImmediate remImmediate remuImmediate wydndxImmediate remsuImmediate divrImmediate
    u21ndxImmediate seqImmediate sneImmediate sltImmediate sgtImmediate sltuImmediate sgtuImmediate
    mystImmediate sand sor setGroup chkImmediate bytndx bytndxImmediate csrrd csrrw csrrs csrrc llal llah lpal
    lpah setkey setto getto getzl mvseg csave crestore exec pushq popq peekq statq pushqi popqi peekqi statqi
    rex pfi wfi rte tlbrw sync fmov frsqrt ftoi itof fsign fman fs2d fs2q fd2q fstat isnan finite ftx fcx fex
    fdx frm trunc fsync fres fsigmoid fd2s fq2s fq2d fclass unord fsqrt fabs fnabs fneg scaleb fmin fmax fadd
    fsub fmul fdiv frem fnxt fcmp fseq fslt fsle fsne fcmpb fsetm cpysgn sgninv sgnand sgnor sgnxor sgnxnor
    fclassDyadic fma fms fnma fnms f4Group dfabs dfnabs dfneg dfsqrt pabs pnabs pneg psqrt dfmin dfmax dfadd
    dfsub dfmul dfdiv dfrem dfnxt dfcmp dfseq dfslt dfsle dfsne dfcmpb dfsetm padd psub pmul pdiv psle df3Group
    df4Group pst3Group pst4Group link unlink nop mand morMask mxorMask madd msub mnand mnor mxnor msll msrl
    mfill mpop mfirst mlast mtm mfm mtvl mfvl jal bal jalr fbeq fbne blt bge bltu bgeu bbs beq bne blank43h
    blank44h blank45h blank4ch exi0 exi1 exi2 exi3 exi4 imod brmod stride reglist ldb ldbIndexed ldw ldwIndexed
    ldt ldtIndexed ldo ldoIndexed ldbz ldbzIndexed ldwz ldwzIndexed ldtz ldtzIndexed ldoAt64h ldoIndexedAt65h
    ldptrAt60h ldptrAt61h ldptrAt64h ldptrAt65h ldmAt60h ldmAt61h loadFunc4Is4At60h loadFunc4Is5At60h
    loadFunc4Is4At61h loadFunc4Is5At61h loadFunc4Is4At64h loadFunc4Is5At64h loadFunc4Is4At65h loadFunc4Is5At65h
    cache stb stbIndexed stw stwIndexed stt sttIndexed sto stoIndexed stptr stptrIndexed stm stmIndexed pop
    popPair push pushPair ldsx ldxvx cvldsx cvldxvx stsx stxvx cvstsx cvstxvx cRti cPfi cWfi cSync cBrk cLdoFp
    cLdoSp cStoFp cStoSp cJmp cMov cAdd cAnd cAddi cAndi cOri cBeqz cBnez cBal cLdi cSlli cSrli cSrai cSub cOr
    cXor cNand cNor c7chUnlisted c7dhReserved cLdmSp c7fhNoRow scalebDecimal cpysgnDecimal sgninvDecimal
    sgnandDecimal sgnorDecimal sgnxorDecimal sgnxnorDecimal fclassDecimal loadFunc4Is13At64h loadFunc4Is13At65h
    c74hReserved i

end Sys2Proof.Laws.RoundTrip

namespace Sys2Proof

/-- Settles O1: the rows of the opcode table, one by one. -/
theorem encodeDecode : Obligations.EncodeDecode := fun i hi => Laws.RoundTrip.statement_of_instr i hi

end Sys2Proof
end

section
/-! SUPPORT. Which instructions a word can decode to: the 20-bit rows (48 R670, R707), and the rows that a word run by
MYST can name (46 R551, R552). -/

namespace Sys2Proof

/-! ### What holds of every instruction the decoder reads -/

/-- Every instruction that `r` answers satisfies `p`. -/
def Reads (p : Instr → Bool) : Except Reject Instr → Prop
  | .ok i => p i = true
  | .error _ => True

theorem Reads.ok {p : Instr → Bool} {r : Except Reject Instr} {i : Instr} (h : Reads p r) (hi : r = .ok i) :
    p i = true := by
  subst hi
  exact h

@[simp] theorem reads_ok (p : Instr → Bool) (i : Instr) : Reads p (.ok i) ↔ p i = true := Iff.rfl

@[simp] theorem reads_error (p : Instr → Bool) (e : Reject) : Reads p (.error e) := trivial

@[simp] theorem scalarOnly_false (w : BitVec 36) (r : Except Reject Instr) : scalarOnly false w r = r := rfl

@[simp] theorem scalarOnly_true (w : BitVec 36) (r : Except Reject Instr) :
    scalarOnly true w r = .error (.blankOpcode (opOf w)) := rfl

@[simp] theorem vectorOnly_false (w : BitVec 36) (r : Except Reject Instr) :
    vectorOnly false w r = .error (.blankOpcode (opOf w)) := rfl

@[simp] theorem vectorOnly_true (w : BitVec 36) (r : Except Reject Instr) : vectorOnly true w r = r := rfl

theorem reads_withoutVector {p : Instr → Bool} {b : Bool} {w : BitVec 36} {r : Except Reject Instr}
    (h : Reads p r) : Reads p (withoutVector b w r) := by
  cases b
  · exact h
  · trivial

/-! ### The length of an instruction -/

/-- A 36-bit row. -/
def isLong (i : Instr) : Bool := !i.isShort

@[simp] theorem decodeR1_long (func : Nat) (v : Bool) (w : BitVec 36) : Reads isLong (decodeR1 func v w) := by
  unfold decodeR1
  split
  all_goals cases v <;> trivial

@[simp] theorem decodeR2_long (func : Nat) (v : Bool) (w : BitVec 36) : Reads isLong (decodeR2 func v w) := by
  unfold decodeR2
  split
  all_goals cases v <;> trivial

@[simp] theorem decodeR3_long (func : Nat) (w : BitVec 36) : Reads isLong (decodeR3 func w) := by
  unfold decodeR3
  split <;> trivial

@[simp] theorem decodeSys_long (func : Nat) (v : Bool) (w : BitVec 36) : Reads isLong (decodeSys func v w) := by
  unfold decodeSys
  split
  all_goals cases v <;> first | trivial | exact reads_withoutVector rfl

@[simp] theorem decodeCsr_long (op : Nat) (v : Bool) (w : BitVec 36) : Reads isLong (decodeCsr op v w) := by
  unfold decodeCsr
  cases v
  · split
    · trivial
    · split <;> trivial
  · trivial

@[simp] theorem decodeBytndx_long (func4 : Nat) (w : BitVec 36) : Reads isLong (decodeBytndx func4 w) := by
  unfold decodeBytndx
  split <;> trivial

@[simp] theorem decodeBtfld_long (func : Nat) (w : BitVec 36) : Reads isLong (decodeBtfld func w) := by
  unfold decodeBtfld
  split <;> trivial

@[simp] theorem decodeDf1_long (func : Nat) (w : BitVec 36) : Reads isLong (decodeDf1 func w) := by
  unfold decodeDf1
  split <;> trivial

@[simp] theorem decodeDf2_long (func : Nat) (w : BitVec 36) : Reads isLong (decodeDf2 func w) := by
  unfold decodeDf2
  split <;> trivial

@[simp] theorem decodeF1_long (func : Nat) (w : BitVec 36) : Reads isLong (decodeF1 func w) := by
  unfold decodeF1
  split <;> trivial

@[simp] theorem decodeF2_long (func : Nat) (w : BitVec 36) : Reads isLong (decodeF2 func w) := by
  unfold decodeF2
  split <;> trivial

@[simp] theorem decodeF3_long (func : Nat) (w : BitVec 36) : Reads isLong (decodeF3 func w) := by
  unfold decodeF3
  split <;> trivial

@[simp] theorem decodePst1_long (func : Nat) (w : BitVec 36) : Reads isLong (decodePst1 func w) := by
  unfold decodePst1
  split <;> trivial

@[simp] theorem decodePst2_long (func : Nat) (w : BitVec 36) : Reads isLong (decodePst2 func w) := by
  unfold decodePst2
  split <;> trivial

@[simp] theorem decodeVm_long (func : Nat) (v : Bool) (w : BitVec 36) : Reads isLong (decodeVm func v w) := by
  unfold decodeVm
  split
  all_goals cases v <;> trivial

@[simp] theorem decodeLoad60_long (func4 : Nat) (w : BitVec 36) : Reads isLong (decodeLoad60 func4 w) := by
  unfold decodeLoad60
  split <;> trivial

@[simp] theorem decodeLoad61_long (func4 : Nat) (w : BitVec 36) : Reads isLong (decodeLoad61 func4 w) := by
  unfold decodeLoad61
  split <;> trivial

@[simp] theorem decodeLoad64_long (func4 : Nat) (w : BitVec 36) : Reads isLong (decodeLoad64 func4 w) := by
  unfold decodeLoad64
  split <;> trivial

@[simp] theorem decodeLoad65_long (func4 : Nat) (w : BitVec 36) : Reads isLong (decodeLoad65 func4 w) := by
  unfold decodeLoad65
  split <;> trivial

@[simp] theorem decodePop_long (func4 : Nat) (w : BitVec 36) : Reads isLong (decodePop func4 w) := by
  unfold decodePop
  split <;> trivial

@[simp] theorem decodeStore68_long (func4 : Nat) (w : BitVec 36) : Reads isLong (decodeStore68 func4 w) := by
  unfold decodeStore68
  split <;> trivial

@[simp] theorem decodeStore69_long (func4 : Nat) (w : BitVec 36) : Reads isLong (decodeStore69 func4 w) := by
  unfold decodeStore69
  split <;> trivial

@[simp] theorem decodePush_long (func4 : Nat) (w : BitVec 36) : Reads isLong (decodePush func4 w) := by
  unfold decodePush
  split <;> trivial

theorem decode70_short (k r : Nat) (w : BitVec 36) : Reads Instr.isShort (decode70 k r w) := by
  unfold decode70
  split
  · split <;> rfl
  · rfl

theorem decode74_short (sel mid : Nat) (w : BitVec 36) : Reads Instr.isShort (decode74 sel mid w) := by
  unfold decode74
  split
  · split <;> rfl
  all_goals rfl

theorem decode7c_short (sel op : Nat) (w : BitVec 36) : Reads Instr.isShort (decode7c sel op w) := by
  unfold decode7c
  split
  case h_4 => split <;> rfl
  all_goals rfl

theorem decode20_short (root : Nat) (w : BitVec 36) : Reads Instr.isShort (decode20 root w) := by
  unfold decode20
  split
  case h_1 => exact decode70_short ..
  case h_5 => exact decode74_short ..
  case h_13 => exact decode7c_short ..
  all_goals rfl

/-- On the vector page, and on the scalar page below 70h, stand the 36-bit rows (30 R131, R132). -/
theorem decodeRoot_long {root : Nat} {v : Bool} (h : root < 0x70 ∨ v = true) (func func4 : Nat) (w : BitVec 36) :
    Reads isLong (decodeRoot root func func4 v w) := by
  unfold decodeRoot
  split
  all_goals cases v
  all_goals first | trivial | simp

/-- On the scalar page from 70h on stand the 20-bit rows (48 R707). -/
theorem decodeRoot_compressed {root : Nat} (hlo : 0x70 ≤ root) (hhi : root < 0x80) (func func4 : Nat) (w : BitVec 36) :
    decodeRoot root func func4 false w = decode20 root w := by
  interval_cases root <;> rfl

/-- The 20-bit page is chosen by bits 7:4 (48 R670). -/
theorem compressed_iff (w : BitVec 36) :
    w.extractLsb' 4 4 = 0x7#4 ↔ vBit w = false ∧ 0x70 ≤ (rootOf w).toNat := by
  have hv : vBit w = decide (w.toNat / 128 % 2 = 1) := by
    simp [vBit, bit, BitVec.toNat_eq, Nat.shiftRight_eq_div_pow, beq_eq_decide]
  have hr : (rootOf w).toNat = w.toNat % 128 := by
    simp [rootOf, BitVec.extractLsb'_toNat]
  rw [hv, hr]
  simp only [BitVec.toNat_eq, BitVec.extractLsb'_toNat, Nat.shiftRight_eq_div_pow, decide_eq_false_iff_not]
  norm_num
  omega

theorem isShort_of_decode {w : BitVec 36} {i : Instr} (h : decode w = .ok i) :
    i.isShort = (w.extractLsb' 4 4 == 0x7#4) := by
  have hroot : (rootOf w).toNat < 0x80 := (rootOf w).isLt
  by_cases hc : w.extractLsb' 4 4 = 0x7#4
  · obtain ⟨hv, hlo⟩ := (compressed_iff w).1 hc
    rw [decode, hv, decodeRoot_compressed hlo hroot] at h
    simp [hc, (decode20_short _ w).ok h]
  · have hpage : (rootOf w).toNat < 0x70 ∨ vBit w = true := by
      by_contra hn
      simp only [not_or, Nat.not_lt, Bool.not_eq_true] at hn
      exact hc ((compressed_iff w).2 ⟨hn.2, hn.1⟩)
    have := (decodeRoot_long hpage _ _ w).ok h
    simpa [isLong, beq_eq_decide, hc] using this

/-! ### The bits of a 20-bit word -/

/-- The compressed page reads no bit from bit 20 on. -/
theorem decode20_congr {w u : BitVec 36} (h : ∀ k n, k + n ≤ 20 → w.extractLsb' k n = u.extractLsb' k n) (root : Nat) :
    decode20 root w = decode20 root u := by
  unfold decode20 decode70 decode74 decode7c bit
  simp (disch := decide) only [h]

theorem extract_low (w : BitVec 36) {k n : Nat} (h : k + n ≤ 20) :
    ((w.setWidth 20).setWidth 36).extractLsb' k n = w.extractLsb' k n := by
  ext i hi
  simp only [BitVec.getElem_extractLsb', BitVec.getLsbD_setWidth]
  have h20 : k + i < 20 := by omega
  have h36 : k + i < 36 := by omega
  simp [h20, h36]

/-- Settles O3: the compressed page is that of bits 7:4 (`compressed_iff`), and it reads the low 20 bits only. -/
theorem instructionLength : Obligations.InstructionLength := by
  refine ⟨fun w i h => isShort_of_decode h, fun w hw => ?_⟩
  have hu : ((w.setWidth 20).setWidth 36).extractLsb' 4 4 = 0x7#4 := (extract_low w (by decide)).trans hw
  obtain ⟨hv, hlo⟩ := (compressed_iff w).1 hw
  obtain ⟨hv', -⟩ := (compressed_iff _).1 hu
  have hroot : rootOf ((w.setWidth 20).setWidth 36) = rootOf w := extract_low w (by decide)
  rw [decode, decode, hv, hv', hroot, decodeRoot_compressed hlo (rootOf w).isLt,
    decodeRoot_compressed hlo (rootOf w).isLt]
  exact decode20_congr (fun k n h => (extract_low w h).symm) _

end Sys2Proof
end

section
/-! SUPPORT. What every instruction does at most, EXEC, MYST, WFI and the modifier words among them, and from it what
every step keeps (60 R737, R750, R755). -/

namespace Sys2Proof.Machine

/-! ### What every instruction keeps -/

/-- From `s` to `t` the canonical forms and bounds of `State.sound` and the rule of the pending modifiers are kept, and
the privilege stack changes in one of its ways. -/
structure Keeps (s t : State) : Prop where
  sound : s.sound → t.sound
  mods : s.mods.wf → t.mods.wf
  irqLines : t.irqLines = s.irqLines
  pmstack : PmChange s t

/-- The outcome is a next state, and what `Keeps` says is kept. -/
def Out.Keeps (s : State) (r : Out) : Prop := ∃ t, r = .next t ∧ Machine.Keeps s t

theorem wf_none : Mods.none.wf := fun _ => rfl

/-- The outcome is a next state in which `i` changed what it may, and the rule of the pending modifiers is kept. -/
def Out.Runs (i : Instr) (s : State) (r : Out) : Prop :=
  ∃ t, r = .next t ∧ Machine.Changes i s t ∧ (s.mods.wf → t.mods.wf)

theorem Out.Runs.keeps {i : Instr} {s : State} {r : Out} (h : Out.Runs i s r) : Out.Keeps s r := by
  obtain ⟨t, hr, hc, hm⟩ := h
  exact ⟨t, hr, hc.sound, hm, hc.irqLines, hc.pmstack⟩

theorem runs_changes {i : Instr} {s : State} {r : Out} (h : Out.Changes i s r) : Out.Runs i s r := by
  obtain ⟨t, hr, hc, hm⟩ := h
  exact ⟨t, hr, hc, fun _ => hm ▸ wf_none⟩

theorem runs_unimplemented (i : Instr) (s : State) : Out.Runs i s (.next s.unimplemented) :=
  runs_changes (changes_ordinary (ordinary_unimplemented s))

theorem keeps_unimplemented (s : State) : Out.Keeps s (.next s.unimplemented) := (runs_unimplemented .sync s).keeps

/-- The pending modifiers, IP and the stalled WFI are no special state of any instruction. -/
theorem changes_control (i : Instr) (s : State) (m : Mods) (a : Word) (b : Bool) :
    Changes i s { s with mods := m, ip := a, waiting := b } :=
  ⟨rfl, rfl, fun _ => rfl, fun _ => rfl, fun _ => rfl, fun _ => rfl, fun _ => ⟨rfl, rfl⟩, fun _ _ _ => rfl,
    fun _ _ => rfl, fun _ _ _ _ => rfl, fun _ => rfl, .inl rfl,
    fun w => ⟨w.mem, w.imem, w.csr, w.tlb, w.vl, w.queues, w.coeff⟩⟩

/-- A modifier word that is kept stands in a group. -/
theorem runs_pend {i : Instr} (repeated : Bool) (m : Mods) (s : State) : Out.Runs i s (pend repeated m s) := by
  cases repeated with
  | true => exact runs_unimplemented i s
  | false => exact ⟨_, rfl, changes_control i s _ _ s.waiting, fun _ hs => by simp at hs⟩

/-- The two ends of a WFI: the core stalls where it is, or goes on. -/
theorem runs_wait {i : Instr} (s : State) (a : Word) : Out.Runs i s (.next (waitForInterrupt s (s.jump a))) := by
  unfold waitForInterrupt
  split
  · exact ⟨_, rfl, changes_control i s s.mods s.ip true, id⟩
  · exact ⟨_, rfl, changes_control i s Mods.none a false, fun _ => wf_none⟩

theorem runs_wfi (s : State) : Out.Runs .wfi s (exec .wfi s) := by
  rw [exec_wfi]
  unfold execWfi plain plainOut
  split
  · exact runs_unimplemented _ s
  · exact runs_wait s _

theorem runs_cWfi (s : State) : Out.Runs .cWfi s (exec .cWfi s) := by
  rw [exec_cWfi]
  unfold execCWfi short shortOut
  split
  · exact runs_unimplemented _ s
  · exact runs_wait s _

/-- EXEC and MYST, which run a word of their own. -/
def runsWord : Instr → Bool
  | .exec _ | .myst _ | .mystImmediate _ => true
  | _ => false

/-- Every instruction but EXEC and MYST changes what `Changes` says of it. -/
theorem exec_runs (i : Instr) (s : State) (h : runsWord i = false) : Out.Runs i s (exec i s) := by
  cases ho : isOpen i
  · exact runs_changes (exec_changes i s ho)
  cases i
  case exi0 p => exact runs_pend ..
  case exi1 p => exact runs_pend ..
  case exi2 p => exact runs_pend ..
  case exi3 p => exact runs_pend ..
  case exi4 p => exact runs_pend ..
  case imod v o => exact runs_pend ..
  case brmod o => exact runs_pend ..
  case stride v o => exact runs_pend ..
  case reglist l => exact runs_pend ..
  case wfi => exact runs_wfi s
  case cWfi => exact runs_cWfi s
  all_goals first | exact (Bool.false_ne_true h.symm).elim | exact (Bool.false_ne_true ho).elim

/-! ### Words that EXEC and MYST run -/

/-- EXEC runs no EXEC and no MYST (46 R550). -/
theorem runsWord_of_runsInExec {i : Instr} (h : i.runsInExec = true) : runsWord i = false := by
  unfold runsWord
  split
  case h_4 => rfl
  all_goals exact (Bool.false_ne_true h).elim

theorem keeps_runWord (w : BitVec 36) (s : State) : Out.Keeps s (runWord w s) := by
  rw [runWord_eq]
  unfold ranDecoded
  split
  · split
    · exact (exec_runs _ s (runsWord_of_runsInExec ‹_›)).keeps
    · exact keeps_unimplemented s
  · exact keeps_unimplemented s

theorem keeps_exec (a : RSpec) (s : State) : Out.Keeps s (exec (.exec a) s) := by
  rw [exec_exec]
  cases a with
  | v r => exact keeps_unimplemented s
  | x r =>
    obtain ⟨t, ht, hk⟩ := keeps_runWord ((s.readX r).setWidth 36) { s with mods := Mods.none }
    exact ⟨t, ht, fun w => hk.sound ⟨w.mem, w.imem, w.csr, w.tlb, w.vl, w.queues, w.coeff⟩, fun _ => hk.mods wf_none,
      hk.irqLines, hk.pmstack⟩

/-! ### MYST -/

/-- A 36-bit instruction other than a modifier, EXEC, MYST and WFI. -/
def isPlainRow (i : Instr) : Bool := !isOpen i && !i.isShort

theorem runsInExec_of_plainRow {i : Instr} (h : isPlainRow i = true) : i.runsInExec = true ∧ isOpen i = false := by
  cases i
  all_goals first | exact ⟨rfl, rfl⟩ | exact (Bool.false_ne_true h).elim

theorem decodeBytndx_plainRow (func4 : Nat) (w : BitVec 36) : Reads isPlainRow (decodeBytndx func4 w) := by
  unfold decodeBytndx
  split <;> trivial

/-- The roots of the plain RI format decode to rows of that format (46 R551). -/
theorem decodeRoot_ri {r : BitVec 7} (h : riRoot r = true) (func func4 : Nat) (v : Bool) (w : BitVec 36) :
    Reads isPlainRow (decodeRoot r.toNat func func4 v w) := by
  unfold riRoot at h
  split at h
  case h_27 => exact (Bool.false_ne_true h).elim
  all_goals
    rename_i hr
    rw [hr]
    first | trivial | exact decodeBytndx_plainRow func4 w

/-- The function codes that 30 R134 defines, other than MYST's, decode to rows of the R2 group (46 R552). -/
theorem decodeR2_defined {f : BitVec 7} (h : r2Func f = true) (v : Bool) (w : BitVec 36) :
    Reads isPlainRow (decodeR2 f.toNat v w) := by
  unfold r2Func at h
  split at h
  case h_56 => exact (Bool.false_ne_true h).elim
  all_goals
    rename_i hf
    rw [hf]
    cases v <;> trivial

/-- The word that the RI form of MYST runs. -/
theorem reads_mystImmediate {r : BitVec 7} (h : riRoot r = true) (o : RI) :
    Reads isPlainRow (decode (RI.enc r false o)) := by
  rw [decode_arm (RI.enc_root ..) (RI.enc_vBit ..)]
  exact decodeRoot_ri h ..

/-- The word that the R2 form of MYST runs. -/
theorem reads_myst {f : BitVec 7} (h : r2Func f = true) (p : BitVec 2) (o : R2) :
    Reads isPlainRow (decode (R2.enc 0x02#7 f false p o)) := by
  rw [decode_arm (R2.enc_root ..) (R2.enc_vBit ..), R2.enc_func]
  exact decodeR2_defined h ..

/-- Such a word is run as it decodes. -/
theorem runWord_plainRow {w : BitVec 36} (h : Reads isPlainRow (decode w)) (s : State) :
    runWord w s = runDecoded exec (decode w) s := by
  rw [runWord_eq]
  unfold ranDecoded runDecoded
  cases hd : decode w with
  | error e => rfl
  | ok i => exact if_pos (runsInExec_of_plainRow (h.ok hd)).1

/-- It answers a next state outside a group, in which no more than by an instruction of its own is changed. -/
theorem runWord_plainRow_next {w : BitVec 36} (h : Reads isPlainRow (decode w)) (s : State) :
    ∃ t, runWord w s = .next t ∧ (∃ i, Changes i s t) ∧ t.mods = Mods.none := by
  rw [runWord_plainRow h]
  cases hd : decode w with
  | error e =>
    obtain ⟨t, ht, hc, hm⟩ := changes_ordinary (i := .sync) (ordinary_unimplemented s)
    exact ⟨t, ht, ⟨_, hc⟩, hm⟩
  | ok i =>
    obtain ⟨t, ht, hc, hm⟩ := exec_changes i s (runsInExec_of_plainRow (h.ok hd)).2
    exact ⟨t, ht, ⟨_, hc⟩, hm⟩

theorem keeps_atWord {w : BitVec 36} (h : Reads isPlainRow (decode w)) (s : State) :
    Out.Keeps s (runWord w s.atWord) := by
  obtain ⟨t, ht, ⟨i, hc⟩, hm⟩ := runWord_plainRow_next h s.atWord
  exact ⟨t, ht, fun w => hc.sound ⟨w.mem, w.imem, w.csr, w.tlb, w.vl, w.queues, w.coeff⟩, fun _ => hm ▸ wf_none,
    hc.irqLines, hc.pmstack⟩

theorem keeps_plainOut {v : Bool} {s : State} {r : Out} (h : Out.Keeps s r) : Out.Keeps s (plainOut v s r) := by
  unfold plainOut
  split
  · exact keeps_unimplemented s
  · exact h

theorem keeps_mystImmediate (o : RI) (s : State) : Out.Keeps s (exec (.mystImmediate o) s) := by
  rw [exec_mystImmediate]
  refine keeps_plainOut ?_
  dsimp only
  split
  · exact keeps_atWord (reads_mystImmediate ‹_› o) s
  · exact keeps_unimplemented s

theorem keeps_myst (o : R2) (s : State) : Out.Keeps s (exec (.myst o) s) := by
  rw [exec_myst]
  refine keeps_plainOut ?_
  dsimp only
  split
  · rename_i h
    exact keeps_atWord (reads_myst (Bool.and_eq_true_iff.1 h).2 _ o) s
  · exact keeps_unimplemented s

/-! ### Every instruction, every step -/

/-- Every instruction answers a next state from every state and keeps what `Keeps` says. -/
theorem exec_keeps (i : Instr) (s : State) : Out.Keeps s (exec i s) := by
  cases hw : runsWord i
  · exact (exec_runs i s hw).keeps
  cases i
  case exec a => exact keeps_exec a s
  case myst o => exact keeps_myst o s
  case mystImmediate o => exact keeps_mystImmediate o s
  all_goals exact (Bool.false_ne_true hw).elim

/-- A step at the default parameters: an interrupt entry, or one word. -/
theorem step_cases (s : State) : step s =
    if s.interruptTaken then .next s.takeInterrupt
    else Out.tick (runDecoded exec (decode (fetchWord s.imem s.ip)) s) := by
  unfold step stepBy
  rw [accessing_eq]
  rfl

theorem runDecoded_keeps (r : Except Reject Instr) (s : State) : Out.Keeps s (runDecoded exec r s) := by
  cases r with
  | error e => exact keeps_unimplemented s
  | ok i => exact exec_keeps i s

theorem State.tick_wf {s : State} (h : s.wf) : s.tick.wf := by
  unfold State.tick
  split
  · exact h
  · exact ⟨h.mem, h.imem, h.csr, h.tlb, h.vl, h.queues, h.coeff, h.mods⟩

/-- A step answers the interrupt entry, or the state of one word with the lines moved on. -/
theorem step_next (s : State) : ∃ t, Keeps s t ∧ (step s = .next t ∨ step s = .next t.tick) := by
  rw [step_cases]
  split
  · have hraise : Out.Changes .sync s (.next s.takeInterrupt) :=
      changes_ordinary (ordinary_next ((Quiet.refl s).raises s.irq.word))
    obtain ⟨t, ht, hk⟩ := (runs_changes hraise).keeps
    exact ⟨t, hk, .inl ht⟩
  · obtain ⟨t, ht, hk⟩ := runDecoded_keeps (decode (fetchWord s.imem s.ip)) s
    exact ⟨t, hk, .inr (by rw [ht]; rfl)⟩

/-- Settles O7: an interrupt entry and every word keep the well-formed states (`exec_keeps`), and so do the lines. -/
theorem wellFormedKept : Obligations.WellFormedKept := by
  intro s t hs hstep
  obtain ⟨u, hk, h⟩ := step_next s
  obtain ⟨hsound, hmods⟩ := (State.wf_iff s).1 hs
  have hu : u.wf := (State.wf_iff u).2 ⟨hk.sound hsound, hk.mods hmods⟩
  rw [hstep] at h
  obtain h | h := h <;> injection h with h
  · exact h ▸ hu
  · exact h ▸ State.tick_wf hu

/-- Settles O10: an interrupt entry is a next state, and every instruction answers one. -/
theorem everyStepGoesOn : Obligations.EveryStepGoesOn := by
  intro s
  obtain ⟨t, -, h | h⟩ := step_next s
  · exact ⟨_, h⟩
  · exact ⟨_, h⟩

/-- Settles O12: the ways of `PmChange`, which every instruction keeps. -/
theorem privilegeStackChanges : Obligations.PrivilegeStackChanges := by
  intro i s t h
  obtain ⟨u, hu, hk⟩ := exec_keeps i s
  rw [h] at hu
  injection hu with hu
  exact hu ▸ hk.pmstack

theorem runsWord_of_ne {i : Instr} (hexec : ∀ a, i ≠ .exec a) (hmyst : ∀ o, i ≠ .myst o)
    (hri : ∀ o, i ≠ .mystImmediate o) : runsWord i = false := by
  unfold runsWord
  split
  · exact absurd rfl (hexec _)
  · exact absurd rfl (hmyst _)
  · exact absurd rfl (hri _)
  · rfl

/-- Settles O11: the fields of `Changes`, which every instruction but EXEC and MYST respects. -/
theorem specialStateWriters : Obligations.SpecialStateWriters := by
  intro i s t h hexec hmyst hri
  obtain ⟨u, hu, hc, -⟩ := exec_runs i s (runsWord_of_ne hexec hmyst hri)
  rw [h] at hu
  injection hu with hu
  subst hu
  exact ⟨hc.tvec, hc.irqLines, hc.vl, hc.tlb, hc.coeff, hc.plotLog, hc.imem, hc.csr, hc.semaphore, hc.queues, hc.badaddr⟩

end Sys2Proof.Machine
end

section
/-! SUPPORT. Fetching a word and running it (20 R72, R77, 60 R750), the interrupt entry, and reset (70 R780). -/

namespace Sys2Proof.Machine

/-! ### Fetch -/

theorem getLsbD_nybbleOf (byte : Word → Byte) (a : Word) {j : Nat} (hj : j < 4) :
    (nybbleOf byte a).getLsbD j = (byte (a >>> 1)).getLsbD (if a.getLsbD 0 then 4 + j else j) := by
  unfold nybbleOf
  cases h : a.getLsbD 0 with
  | false =>
    have hbit : ∀ b : BitVec 1, b ≠ 1#1 → b = 0#1 := by decide
    have h0 : a.extractLsb' 0 1 = 0#1 := hbit _ (by rw [ne_eq, getLsbD_extract_bit, h]; decide)
    simp [h0, hj]
  | true =>
    have h1 : a.extractLsb' 0 1 = 1#1 := by
      rw [getLsbD_extract_bit, h]
    simp [h1, hj]

theorem getLsbD_append_low {m n : Nat} (x : BitVec m) (y : BitVec n) {i : Nat} (h : i < n) :
    (x ++ y).getLsbD i = y.getLsbD i := by
  rw [BitVec.getLsbD_append, if_pos h]

theorem getLsbD_append_high {m n : Nat} (x : BitVec m) (y : BitVec n) {i : Nat} (h : n ≤ i) :
    (x ++ y).getLsbD i = x.getLsbD (i - n) := by
  rw [BitVec.getLsbD_append, if_neg (by omega)]

/-- Nybble `k` of a fetched word is the nybble at `ip + k`. -/
theorem getLsbD_wordOf (byte : Word → Byte) (ip : Word) {k j : Nat} (hk : k < 9) (hj : j < 4) :
    (wordOf byte ip).getLsbD (4 * k + j) = (nybbleOf byte (ip + BitVec.ofNat 64 k)).getLsbD j := by
  unfold wordOf
  interval_cases k
  · simp (disch := omega) only [getLsbD_append_low]
    simp
  all_goals
    simp (disch := omega) only [getLsbD_append_low, getLsbD_append_high]
    congr 1
    omega

/-- Settles O5: `getLsbD_wordOf` and `getLsbD_nybbleOf`. -/
theorem fetchLayout : Obligations.FetchLayout := by
  intro m ip k j hk hj
  rw [fetchWord, getLsbD_wordOf _ _ hk hj, getLsbD_nybbleOf _ _ hj]

/-! ### The two kinds of step -/

theorem interruptTaken_bits (s : State) : s.interruptTaken = true ↔
    s.pmstack.getLsbD 0 = true ∧ s.irq.level ≠ 0#4 ∧ s.mods.start = none ∧ s.waiting = false := by
  rw [interruptTaken_iff, State.ie_eq, State.inGroup, Option.isSome_eq_false_iff, Option.isNone_iff_eq_none]

theorem step_of_interruptTaken {s : State} (h : s.interruptTaken = true) : step s = .next s.takeInterrupt := by
  rw [step_cases, if_pos h]

theorem step_of_not_interruptTaken {s : State} (h : s.interruptTaken = false) :
    step s = Out.tick (runDecoded exec (decode (fetchWord s.imem s.ip)) s) := by
  rw [step_cases, if_neg (by rw [h]; decide)]

theorem State.tick_eq (t : State) : t.tick =
    if t.mods.start.isSome = true ∧ t.waiting = false then t else { t with irqLines := t.irqLines.tail } := by
  unfold State.tick State.inGroup
  simp

theorem State.tick_unimplemented (s : State) :
    s.unimplemented.tick = { s.unimplemented with irqLines := s.irqLines.tail } := rfl

/-- Settles O6: the step is `takeInterrupt`, an exception with the word of the lines as its cause. -/
theorem interruptEntry : Obligations.InterruptEntry := by
  refine ⟨interruptTaken_bits, fun s hie hlevel hstart hwait => ?_⟩
  rw [step_of_interruptTaken ((interruptTaken_bits s).2 ⟨hie, hlevel, hstart, hwait⟩), State.takeInterrupt,
    IrqSample.word_eq]
  have h := raises_raiseExc s (s.irq.level.setWidth 64 <<< 8 ||| s.irq.cause.setWidth 64)
  rw [Raises, groupAddr_of_start hstart] at h
  exact h

/-- Settles O4: without an interrupt a step is the word's own outcome (`exec_keeps`) with the lines moved on. -/
theorem stepRunsDecoded : Obligations.StepRunsDecoded := by
  intro s hcond
  have hnot : s.interruptTaken = false := by
    rw [Bool.eq_false_iff, ne_eq, interruptTaken_bits]
    rintro ⟨hie, hlevel, hstart, hwait⟩
    obtain h | h | h | h := hcond
    · exact Bool.false_ne_true (h.symm.trans hie)
    · exact hlevel h
    · simp [hstart] at h
    · exact Bool.false_ne_true (hwait.symm.trans h)
  rw [step_of_not_interruptTaken hnot]
  refine ⟨fun i hi _ => ?_, fun e he => ?_⟩
  · obtain ⟨t, ht, -⟩ := exec_keeps i s
    refine ⟨t, ht, ?_⟩
    rw [hi, runDecoded, ht, Out.tick, State.tick_eq]
  · refine ⟨s.unimplemented, unimplemented_raised s, ?_⟩
    rw [he, runDecoded, Out.tick, State.tick_unimplemented]

/-! ### Reset -/

/-- Settles O8: the lists are empty and every register is 0. -/
theorem resetWellFormed : Obligations.ResetWellFormed where
  mem := rfl
  imem := rfl
  csr := rfl
  tlb := rfl
  vl := Nat.zero_le _
  queues q := by simp [State.reset, State.resetOf, State.queue]
  coeff k := by simp [State.reset, State.resetOf]
  mods := wf_none

/-- Settles O9: PMSTACK is 0Ah, whose entry is debug mode with interrupts disabled. -/
theorem resetState : Obligations.ResetState := ⟨rfl, rfl, rfl, rfl, rfl⟩

/-- Settles O2: the decoder run on each word. -/
theorem sampleWords : Obligations.SampleWords := ⟨rfl, rfl, rfl, rfl, rfl, rfl, rfl⟩

end Sys2Proof.Machine
end

section
/-! SUPPORT. Registers and memory (10 R20, R21, 20 R75, R76), and the system instructions other than EXEC and MYST
(46, 60): exceptions, modes, CSRs, interrupts, queues, the TLB and the modifier words. -/

namespace Sys2Proof.Machine

/-! ### Registers and memory -/

/-- Settles O13. -/
theorem scalarRegisters : Obligations.ScalarRegisters := fun s r q a =>
  ⟨s.readX_zero, s.writeX_zero a, s.readX_writeX_same r a, s.readX_writeX_other r q a⟩

theorem getLsbD_memRead (m : List Host.Cell) (a : Word) (n : Nat) {j : Nat} (hj : j < 64) :
    (memRead m a n).getLsbD j =
      (decide (j < 8 * n) && (byteAt m (a + BitVec.ofNat 64 (j / 8))).getLsbD (j % 8)) :=
  getLsbD_readLanes m a n n j hj

theorem extract_memRead (m : List Host.Cell) (a : Word) {n k : Nat} (hn : n ≤ 8) (hk : k < n) :
    (memRead m a n).extractLsb' (8 * k) 8 = byteAt m (a + BitVec.ofNat 64 k) := by
  apply BitVec.eq_of_getLsbD_eq
  intro i hi
  have hdiv : (8 * k + i) / 8 = k := by omega
  have hmod : (8 * k + i) % 8 = i := by omega
  have hlt : 8 * k + i < 8 * n := by omega
  rw [BitVec.getLsbD_extractLsb', getLsbD_memRead _ _ _ (by omega), hdiv, hmod]
  simp [hi, hlt]

theorem memRead_zext (m : List Host.Cell) (a : Word) (n : Nat) :
    memRead m a n = Word.zextLow (8 * n) (memRead m a n) := by
  apply BitVec.eq_of_getLsbD_eq
  intro j hj
  rw [Word.zextLow, BitVec.getLsbD_setWidth, BitVec.getLsbD_setWidth, getLsbD_memRead _ _ _ hj]
  simp only [hj, decide_true, Bool.true_and, ← Bool.and_assoc, Bool.and_self]

/-- Settles O14. -/
theorem memoryRead : Obligations.MemoryRead := fun m a n hn =>
  ⟨fun _ hk => extract_memRead m a hn hk, memRead_zext m a n⟩

/-- Settles O15. -/
theorem memoryWrite : Obligations.MemoryWrite := fun m a n v hn hm =>
  ⟨stored_memWrite a v hn hm, memWrite_wf m a n v hm⟩

/-! ### Exceptions -/

/-- The entry 1010b is that of debug mode with interrupts disabled. -/
theorem entryDecode_raised : Config.default.entryDecode 0xa#4 = (.debug, false) := rfl

/-- Settles O16. -/
theorem exceptionEntry : Obligations.ExceptionEntry := by
  intro s c
  obtain ⟨hlow, hnext⟩ := pushed_entries s.pmstack
  have hentry : Config.default.entryDecode ((s.raiseExc c).pmstack.extractLsb' 0 4) = (.debug, false) := by
    rw [State.raiseExc_pmstack, hlow, entryDecode_raised]
  refine ⟨raises_raiseExc s c, ?_, ?_, ?_, ?_, ?_, s.ie_eq, s.mode_eq⟩
  · rw [State.mode, hentry]
  · rw [State.ie, hentry]
  · rw [State.raiseExc_pmstack, hnext]
  · intro a ha
    rw [State.raiseExc_eip, State.groupAddr, ha]
    rfl
  · intro hnone
    rw [State.raiseExc_eip, groupAddr_of_start hnone]

theorem exec_brk_next {s : State} (h : s.scalarReady) (cause : BitVec 8) :
    exec (.brk cause) s = .next (s.raiseExc (cause.setWidth 64)) := plain_next h.1 h.2

theorem exec_cBrk_next {s : State} (h : s.mods.start = none) (cause : BitVec 7) :
    exec (.cBrk cause) s = .next (s.raiseExc (cause.setWidth 64)) := short_next h

/-- Settles O17. -/
theorem breakpoints : Obligations.Breakpoints :=
  ⟨fun s cause hs => exec_brk_next hs cause ▸ raises_raiseExc s _,
    fun s cause hs => exec_cBrk_next hs cause ▸ raises_raiseExc s _⟩

theorem scalarReady_of_none {s : State} (h : s.mods = Mods.none) : s.scalarReady := by
  constructor
  · rw [h]
    rfl
  · unfold State.modsLegal State.specC State.specD State.specStride
    rw [h]
    rfl

/-- A push and a pop leave the lower fifteen entries. -/
theorem push_pop (p : Word) : (p <<< 4 ||| 0xa#64) >>> 4 = p &&& 0x0fffffffffffffff#64 := by
  have hmask : 0x0fffffffffffffff#64 = BitVec.ofNat 64 (2 ^ 60 - 1) := rfl
  have hlow : 0xa#64 >>> 4 = 0#64 := rfl
  rw [BitVec.ushiftRight_or_distrib, hlow, BitVec.or_zero, hmask]
  apply BitVec.eq_of_getLsbD_eq
  intro i hi
  rw [BitVec.getLsbD_and, getLsbD_lowMask _ _ (by decide), BitVec.getLsbD_ushiftRight, BitVec.getLsbD_shiftLeft]
  by_cases h60 : i < 60
  · simp [h60, show 4 + i < 64 by omega]
  · simp [h60, show ¬4 + i < 64 by omega]

/-- Settles O19: BRK is `raiseExc` and the RTE is `returnExc`. -/
theorem breakThenReturn : Obligations.BreakThenReturn := by
  intro s t u cause hmods hbrk hrte
  rw [exec_brk_next (scalarReady_of_none hmods)] at hbrk
  injection hbrk with hbrk
  subst hbrk
  rw [exec_rte_next (scalarReady_of_none (State.raiseExc_mods ..)) (n := 0#64) rfl] at hrte
  injection hrte with hrte
  subst hrte
  have hpop := push_pop s.pmstack
  have hentry : ((s.pmstack <<< 4 ||| 0xa#64) >>> 4).extractLsb' 0 4 = s.pmstack.extractLsb' 0 4 := by
    apply BitVec.eq_of_getLsbD_eq
    intro i hi
    have hmask : 0x0fffffffffffffff#64 = BitVec.ofNat 64 (2 ^ 60 - 1) := rfl
    rw [hpop, BitVec.getLsbD_extractLsb', BitVec.getLsbD_extractLsb', BitVec.getLsbD_and, hmask,
      getLsbD_lowMask _ _ (by decide)]
    simp [show i < 60 by omega]
  refine ⟨?_, ?_, ?_, hpop, rfl, rfl, rfl, rfl, rfl⟩
  · show (s.raiseExc _).eip + _ = _
    rw [State.raiseExc_eip, groupAddr_of_start (by rw [hmods]; rfl)]
    rfl
  · exact congrArg (fun e => (Config.default.entryDecode e).1) hentry
  · exact congrArg (fun e => (Config.default.entryDecode e).2) hentry

/-! ### Instructions without an effect -/

/-- Settles O23. -/
theorem noOperations : Obligations.NoOperations := by
  intro s hbrmod
  refine ⟨fun v => ?_, ?_, fun v o => ?_, fun hstart => ?_⟩
  · rw [exec_nop, execNop, plain_eq hbrmod]
    split
    · exact onlyIp_finish s
    · exact unimplemented_raised s
  · rw [exec_sync, execSync, plain_eq hbrmod]
    split
    · exact onlyIp_finish s
    · exact unimplemented_raised s
  · rw [exec_fsync, execFsync, plain_eq hbrmod]
    cases o.a.legal v && o.t.agrees v <;> cases s.modsLegal v
    case true.true => exact onlyIp_finish s
    all_goals exact unimplemented_raised s
  · rw [exec_cSync, execCSync, short_next hstart]
    exact onlyIp_jump ..

/-! ### Redirection -/

theorem Mode.index_ofField_eq (t : BitVec 2) (h : t.toNat < 5) : (Mode.ofField t).index = ⟨t.toNat, h⟩ :=
  Fin.ext (Mode.index_ofField t)

/-- A redirection in the terms of 46 R566. -/
theorem State.redirect_eq (s : State) (tm : BitVec 2) (h : tm.toNat < 5) : s.redirect tm = { s with
    cause := s.cause.set tm.toNat s.cause[s.mode.index]
    badaddr := s.badaddr.set tm.toNat s.badaddr[s.mode.index]
    pmstack := (s.pmstack &&& ~~~0xf#64) ||| (tm.setWidth 64 <<< 1)
    ip := s.tvec[tm.toNat]
    mods := Mods.none } := by
  unfold State.redirect State.setCause State.setBadaddr State.tvecOf State.jump
  simp only [redirect_entry, Mode.index_ofField_eq tm h]
  rfl

/-- Settles O20: REX to a lower mode is `redirect`, and else it ends. -/
theorem redirection : Obligations.Redirection := by
  intro s tm ⟨hbrmod, hmods⟩
  have h5 : tm.toNat < 5 := by omega
  rw [exec_rex, execRex, plain_next hbrmod hmods]
  refine ⟨fun hlower => ⟨h5, ?_⟩, fun hsame => ?_⟩
  · rw [if_pos (by simp [hlower]), State.redirect_eq s tm h5]
  · rw [if_neg (by simp [hsame])]
    exact onlyIp_finish s

/-! ### CSRs -/

theorem csrAccess_eq {s : State} (h : s.scalarReady) (o : Csr) (new : Word → Option Word) : csrAccess o new s =
    .next (if s.mode.index.val < (o.regno.extractLsb' 12 4).toNat then s.raiseExc (Config.causePriv.setWidth 64)
      else match new (sparseGet s.csr o.regno.toNat) with
        | none => (s.writeX o.rt (sparseGet s.csr o.regno.toNat)).finish
        | some a => ((s.csrWrite o.regno a).writeX o.rt (sparseGet s.csr o.regno.toNat)).finish) := by
  unfold csrAccess
  rw [plain_next h.1 h.2]
  rfl

theorem csrAccess_denied {s : State} (h : s.scalarReady) {o : Csr}
    (hmode : s.mode.index.val < (o.regno.extractLsb' 12 4).toNat) (new : Word → Option Word) :
    Raises (csrAccess o new s) s (Config.causePriv.setWidth 64) := by
  rw [csrAccess_eq h, if_pos hmode]
  exact raises_raiseExc s _

/-- A CSR instruction that writes: one CSR changes, and Rt gets its old value. -/
theorem csrAccess_writes {s : State} (h : s.scalarReady) {o : Csr} {new : Word → Option Word} {a : Word}
    (hmode : (o.regno.extractLsb' 12 4).toNat ≤ s.mode.index.val) (hcsr : sparseWf 0 65536 s.csr = true)
    (ha : new (sparseGet s.csr o.regno.toNat) = some a) :
    ∃ c, (∀ n : BitVec 16, sparseGet c n.toNat = if n = o.regno then a else sparseGet s.csr n.toNat) ∧
      ScalarResult (csrAccess o new s) { s with csr := c } (s.ip + 9#64) o.rt (sparseGet s.csr o.regno.toNat) := by
  refine ⟨sparseSet s.csr o.regno.toNat a, fun n => ?_, ?_⟩
  · simp only [sparseGet_set _ _ _ _ _ _ hcsr, BitVec.toNat_inj]
  · rw [csrAccess_eq h, if_neg (Nat.not_lt.2 hmode), ha]
    exact scalarResult_finish (s.csrWrite o.regno a) o.rt _

/-- Settles O21: the four instructions are `csrAccess`, which is denied, reads, or writes. -/
theorem csrInstructions : Obligations.CsrInstructions := by
  intro s o h
  refine ⟨fun hmode => ?denied, fun hmode hcsr => ⟨?read, ?write⟩⟩
  case denied =>
    simp only [List.forall_mem_cons, List.not_mem_nil, false_implies, implies_true, and_true, exec_csrrd, exec_csrrw,
      exec_csrrs, exec_csrrc]
    exact ⟨csrAccess_denied h hmode _, csrAccess_denied h hmode _, csrAccess_denied h hmode _,
      csrAccess_denied h hmode _⟩
  case read =>
    rw [exec_csrrd, execCsrrd, csrAccess_eq h, if_neg (Nat.not_lt.2 hmode)]
    exact scalarResult_finish s o.rt _
  case write =>
    simp only [List.forall_mem_cons, List.not_mem_nil, false_implies, implies_true, and_true, exec_csrrw, exec_csrrs,
      exec_csrrc]
    exact ⟨csrAccess_writes (new := fun _ => some (s.readX o.ra)) h hmode hcsr rfl,
      csrAccess_writes (new := fun old => some (old ||| s.readX o.ra)) h hmode hcsr rfl,
      csrAccess_writes (new := fun old => some (old &&& ~~~(s.readX o.ra))) h hmode hcsr rfl⟩

/-! ### Interrupt polling -/

theorem pollInterrupt_zero {s : State} (h : s.irq.level = 0#4) (rt : BitVec 5) (t : State) :
    pollInterrupt rt s t = t := if_pos h

theorem pollInterrupt_raises {s : State} (h : s.irq.level ≠ 0#4) (rt : BitVec 5) (t : State) :
    Raises (.next (pollInterrupt rt s t))
      (s.writeX rt (s.irq.level.setWidth 64 <<< 8 ||| s.irq.cause.setWidth 64))
      (s.irq.level.setWidth 64 <<< 8 ||| s.irq.cause.setWidth 64) := by
  rw [pollInterrupt, if_neg h, IrqSample.word_eq]
  exact raises_raiseExc _ _

theorem waitForInterrupt_zero {s : State} (h : s.irq.level = 0#4) (t : State) :
    waitForInterrupt s t = { s with waiting := true } := if_pos h

theorem waitForInterrupt_jump {s : State} (h : s.irq.level ≠ 0#4) (a : Word) :
    OnlyIp (.next (waitForInterrupt s (s.jump a))) { s with waiting := false } a := by
  rw [waitForInterrupt, if_neg h]
  rfl

/-- Settles O22: each is `pollInterrupt` or `waitForInterrupt`, before an end of 36 or of 20 bits. -/
theorem interruptPolling : Obligations.InterruptPolling := by
  intro s rt ⟨hbrmod, hmods⟩
  have hpfi : exec (.pfi (.x rt)) s = .next (pollInterrupt rt s s.finish) := plain_next hbrmod hmods
  have hwfi : exec .wfi s = .next (waitForInterrupt s s.finish) := plain_next hbrmod hmods
  have hcPfi (h : s.mods.start = none) : exec .cPfi s = .next (pollInterrupt 0#5 s s.finishShort) := short_next h
  have hcWfi (h : s.mods.start = none) : exec .cWfi s = .next (waitForInterrupt s s.finishShort) := short_next h
  refine ⟨fun hlevel => ⟨?_, ?_, fun hstart => ⟨?_, ?_⟩⟩, fun hlevel => ⟨?_, ?_, fun hstart => ⟨?_, ?_⟩⟩, ?_, ?_⟩
  · rw [hpfi, pollInterrupt_zero hlevel]
    exact onlyIp_finish s
  · rw [hwfi, waitForInterrupt_zero hlevel]
  · rw [hcPfi hstart, pollInterrupt_zero hlevel]
    exact onlyIp_jump ..
  · rw [hcWfi hstart, waitForInterrupt_zero hlevel]
  · rw [hpfi]
    exact pollInterrupt_raises hlevel rt _
  · rw [hwfi]
    exact waitForInterrupt_jump hlevel _
  · rw [hcPfi hstart]
    have h := pollInterrupt_raises hlevel 0#5 s.finishShort
    rwa [State.writeX_zero] at h
  · rw [hcWfi hstart]
    exact waitForInterrupt_jump hlevel _
  · rw [exec_pfi, execPfi, plain_next hbrmod hmods]
    exact unimplemented_raised s
  · intro offset
    rw [exec_rte, execRte, plain_next hbrmod hmods]
    exact unimplemented_raised s

/-! ### The TLB and the modifier words -/

/-- The number of the entry that A selects (46 R575). -/
def tlbIndex (a : Word) : Nat := (a.extractLsb' 10 2).toNat * 1024 + (a.extractLsb' 0 10).toNat

/-- The TLB after a TLBRW with the selector `a` and the value `b`. -/
def tlbAfter (s : State) (a b : Word) : List (Nat × Word) :=
  if a.extractLsb' 63 1 = 1#1 then sparseSet s.tlb (tlbIndex a) b else s.tlb

theorem tlbIndex_eq_iff (a : Word) {way entry : Nat} (h : entry < 1024) :
    way * 1024 + entry = tlbIndex a ↔ way = (a.extractLsb' 10 2).toNat ∧ entry = (a.extractLsb' 0 10).toNat := by
  have := (a.extractLsb' 0 10).isLt
  unfold tlbIndex
  omega

theorem sparseGet_tlbAfter {s : State} (htlb : sparseWf 0 4096 s.tlb = true) (a b : Word) {way entry : Nat}
    (h : entry < 1024) : sparseGet (tlbAfter s a b) (way * 1024 + entry) =
      if a.getLsbD 63 = true ∧ way = (a.extractLsb' 10 2).toNat ∧ entry = (a.extractLsb' 0 10).toNat then b
      else sparseGet s.tlb (way * 1024 + entry) := by
  unfold tlbAfter
  simp only [getLsbD_extract_bit, ← tlbIndex_eq_iff a h]
  cases a.getLsbD 63
  · simp
  · simp [sparseGet_set _ _ _ _ _ _ htlb]

/-- TLBRW with scalar operands. -/
theorem exec_tlbrw_scalar {s : State} (h : s.scalarReady) (rb ra rt : BitVec 5) :
    exec (.tlbrw ⟨.x rb, .x ra, .x rt⟩) s =
      .next (({ s with tlb := tlbAfter s (s.readX ra) (s.readX rb) } : State).writeX rt
        (sparseGet s.tlb (tlbIndex (s.readX ra)))).finish := by
  have hway : ((s.readX ra).extractLsb' 10 2).toNat % 4 = ((s.readX ra).extractLsb' 10 2).toNat :=
    Nat.mod_eq_of_lt (BitVec.isLt _)
  have hentry : ((s.readX ra).extractLsb' 0 10).toNat % 1024 = ((s.readX ra).extractLsb' 0 10).toNat :=
    Nat.mod_eq_of_lt (BitVec.isLt _)
  rw [exec_tlbrw, execTlbrw, plain_next h.1 h.2]
  dsimp only [Config.default]
  rw [hway, hentry, tlbAfter]
  split <;> rfl

/-- TLBRW with another operand. -/
theorem exec_tlbrw_other {s : State} (h : s.scalarReady) {o : R2}
    (ho : ∀ rb ra rt, o ≠ ⟨.x rb, .x ra, .x rt⟩) : exec (.tlbrw o) s = .next s.unimplemented := by
  rw [exec_tlbrw, execTlbrw, plain_next h.1 h.2]
  obtain ⟨b, a, t⟩ := o
  dsimp only
  split
  · exact absurd rfl (ho _ _ _)
  · rfl

/-- Settles O25: an entry is read, and written if bit 63 of A says so. -/
theorem tlbReadWrite : Obligations.TlbReadWrite := by
  intro s o h htlb
  split
  · obtain ⟨b, a, t⟩ := o
    simp only at *
    subst_vars
    rw [exec_tlbrw_scalar h]
    exact ⟨_, fun way entry _ hentry => sparseGet_tlbAfter htlb _ _ hentry, scalarResult_finish _ _ _⟩
  · rename_i hother
    rw [exec_tlbrw_other h fun rb ra rt ho => hother rb ra rt (by rw [ho]) (by rw [ho]) (by rw [ho])]
    exact unimplemented_raised s

/-- Settles O26: each of the nine is `pend`. -/
theorem modifierWords : Obligations.ModifierWords := by
  intro s v p im br st l
  have hpend (repeated : Bool) (m : Mods) : (repeated = true → Unimplemented (pend repeated m s) s) ∧
      (repeated = false → pend repeated m s = .next { s with
        mods := { m with start := some (s.mods.start.getD s.ip) }, ip := s.ip + 9#64 }) := by
    constructor
    · rintro rfl
      exact unimplemented_raised s
    · rintro rfl
      rfl
  simp only [List.forall_mem_cons, List.not_mem_nil, false_implies, implies_true, and_true]
  exact ⟨hpend _ _, hpend _ _, hpend _ _, hpend _ _, hpend _ _, hpend _ _, hpend _ _, hpend _ _, hpend _ _⟩

end Sys2Proof.Machine
end

section
/-! SUPPORT. The hardware queues (46 R555 to R563). -/

namespace Sys2Proof.Machine

/-! ### The words -/

/-- The words of 30 R130 that no queue instruction has: the field of an operand it lacks names a vector register. -/
theorem decode_queue_field {w : BitVec 36} (hop : w.extractLsb' 0 8 = 0x07#8)
    (h : w.extractLsb' 29 7 ∈ [0x08#7, 0x0c#7] ∧ w.getLsbD 13 = true ∨
      w.extractLsb' 29 7 ∈ [0x09#7, 0x0a#7, 0x0b#7, 0x0d#7, 0x0e#7, 0x0f#7] ∧ w.extractLsb' 25 2 = 1#2) :
    ∃ e, decode w = .error e := by
  have hroot : rootOf w = 0x07#7 := by
    rw [rootOf, ← ext_ext w 0 8 0 7 (by decide), hop]
    rfl
  have hv : vBit w = false := by
    rw [vBit, bit, ← ext_ext w 0 8 7 1 (by decide), hop]
    rfl
  rw [decode_arm hroot hv]
  show ∃ e, decodeSys (funcOf w).toNat false w = .error e
  refine ⟨.vectorField (opOf w) (funcOf w), ?_⟩
  obtain ⟨hf, ht⟩ | ⟨hf, hb⟩ := h
  · have hvector : tVector w = true := by
      rw [tVector, bit, beq_iff_eq, getLsbD_extract_bit, ht]
    simp only [List.mem_cons, List.not_mem_nil, or_false] at hf
    obtain hf | hf := hf
    all_goals
      rw [show funcOf w = _ from hf]
      simp [decodeSys, withoutVector, hvector, funcOf, hf]
  · have hvector : bVector w = true := by rw [bVector, hb]; rfl
    simp only [List.mem_cons, List.not_mem_nil, or_false] at hf
    obtain hf | hf | hf | hf | hf | hf := hf
    all_goals
      rw [show funcOf w = _ from hf]
      simp [decodeSys, withoutVector, hvector, funcOf, hf]

/-! ### The operations -/

/-- The queue numbered by a six-bit field. -/
abbrev fieldQueue (q : BitVec 6) : QueueNo := ⟨q.toNat, q.isLt⟩

section
variable {s : State} (h : s.scalarReady) {q : BitVec 6} {ra rt : BitVec 5}
include h

theorem exec_queue_push {i : Instr} {b : OSpec} (hi : i = .pushqi q (.x ra) ∨
      (i = .pushq b (.x ra) ∧ ∃ n, scalarSource (·.signExtend 64) s b = some n ∧ q.toNat = n.toNat % 64)) :
    exec i s = .next (s.pushQueue (fieldQueue q) (s.readX ra)).finish := by
  obtain rfl | ⟨rfl, n, hn, hq⟩ := hi
  · rw [exec_pushqi, execPushqi, plain_next h.1 h.2]
    simp only [queueNumber_toNat]
  · rw [scalarSource_eq _ s b Config.default.first, Option.ite_none_right_eq_some] at hn
    obtain ⟨hlegal, hvalue⟩ := hn
    obtain rfl := Option.some.inj hvalue
    rw [exec_pushq, execPushq, plain_next h.1 h.2]
    simp only [hlegal, if_true]
    exact congrArg (fun k => Host.Outcome.next (s.pushQueue k (s.readX ra)).finish) (queueNumber_eq hq)

theorem exec_queue_pop {i : Instr}
    (hi : i = .popqi q (.x rt) ∨ (i = .popq (.x ra) (.x rt) ∧ q.toNat = (s.readX ra).toNat % 64)) :
    exec i s = .next (popInto (fieldQueue q) (.x rt) s) := by
  obtain rfl | ⟨rfl, hq⟩ := hi
  · rw [exec_popqi, execPopqi, plain_next h.1 h.2, queueNumber_toNat]
  · rw [exec_popq, execPopq, plain_next h.1 h.2, withQueue, queueNumber_eq (q := fieldQueue q) hq]

theorem exec_queue_peek {i : Instr}
    (hi : i = .peekqi q (.x rt) ∨ (i = .peekq (.x ra) (.x rt) ∧ q.toNat = (s.readX ra).toNat % 64)) :
    exec i s = .next (answer (.x rt) (s.queueTop (fieldQueue q)) s) := by
  obtain rfl | ⟨rfl, hq⟩ := hi
  · rw [exec_peekqi, execPeekqi, plain_next h.1 h.2, queueNumber_toNat]
  · rw [exec_peekq, execPeekq, plain_next h.1 h.2, withQueue, queueNumber_eq (q := fieldQueue q) hq]

theorem exec_queue_stat {i : Instr}
    (hi : i = .statqi q (.x rt) ∨ (i = .statq (.x ra) (.x rt) ∧ q.toNat = (s.readX ra).toNat % 64)) :
    exec i s = .next (answer (.x rt) (s.queueStatus (fieldQueue q)) s) := by
  obtain rfl | ⟨rfl, hq⟩ := hi
  · rw [exec_statqi, execStatqi, plain_next h.1 h.2, queueNumber_toNat]
  · rw [exec_statq, execStatq, plain_next h.1 h.2, withQueue, queueNumber_eq (q := fieldQueue q) hq]

/-- Every form with a vector register (log 16). -/
theorem exec_queue_vector (b : OSpec) (a t : RSpec) (r : BitVec 5) :
    ∀ i ∈ [Instr.pushqi q (.v r), .pushq b (.v r), .pushq (.v r) a, .popqi q (.v r), .popq (.v r) t,
        .popq a (.v r), .peekqi q (.v r), .peekq (.v r) t, .peekq a (.v r), .statqi q (.v r), .statq (.v r) t,
        .statq a (.v r)],
      exec i s = .next s.unimplemented := by
  simp only [List.forall_mem_cons, List.not_mem_nil, false_implies, implies_true, and_true, exec_pushqi, exec_pushq,
    exec_popqi, exec_popq, exec_peekqi, exec_peekq, exec_statqi, exec_statq, execPushqi, execPushq, execPopqi,
    execPopq, execPeekqi, execPeekq, execStatqi, execStatq, plain_next h.1 h.2, popInto, answer, withQueue, true_and]
  cases a <;> simp [OSpec.legal]

end

/-- A push in the terms of single queues. -/
theorem push_queues (s : State) (q : BitVec 6) (a : Word) : ∃ qs : Vector (List Word) 64,
    (∀ p : Fin 64, qs[p] = if p.val = q.toNat ∧ (s.queues[q.toNat]'q.isLt).length < 1023
      then s.queues[q.toNat]'q.isLt ++ [a] else s.queues[p]) ∧
    s.pushQueue (fieldQueue q) a = { s with queues := qs } := by
  refine ⟨_, fun p => ?_, State.pushQueue_eq s (fieldQueue q) a⟩
  split
  · rename_i hlen
    rw [queues_set]
    simp only [Fin.ext_iff, and_iff_left (show (s.queues[q.toNat]'q.isLt).length < 1023 from hlen)]
    rfl
  · rename_i hlen
    exact (if_neg fun hp => hlen hp.2).symm

/-- A pop in the terms of single queues. -/
theorem pop_queues (s : State) (q : BitVec 6) : ∃ qs : Vector (List Word) 64,
    (∀ p : Fin 64, qs[p] = if p.val = q.toNat then (s.queues[q.toNat]'q.isLt).drop 1 else s.queues[p]) ∧
    s.popQueue (fieldQueue q) = { s with queues := qs } := by
  refine ⟨s.queues.set q.toNat ((s.queues[q.toNat]'q.isLt).drop 1), fun p => ?_, ?_⟩
  · rw [queues_set s (fieldQueue q)]
    simp only [Fin.ext_iff]
  · rw [List.drop_one]
    rfl

/-- Settles O24: the four operations, the forms with a vector register, and the words of `decode_queue_field`. -/
theorem hardwareQueues : Obligations.HardwareQueues := by
  intro s q ra rt r b a t h
  refine ⟨fun i hi => ?push, fun i hi => ?pop, fun i hi => ?peek, fun hlen i hi => ?stat,
    fun w hop hw => decode_queue_field hop hw, fun i hi => ?vector⟩
  case push =>
    obtain ⟨qs, hqs, hpush⟩ := push_queues s q (s.readX ra)
    refine ⟨qs, hqs, ?_⟩
    rw [exec_queue_push h hi, hpush]
    rfl
  case pop =>
    obtain ⟨qs, hqs, hpop⟩ := pop_queues s q
    refine ⟨qs, hqs, ?_⟩
    rw [exec_queue_pop h hi, popInto, hpop, State.queueTop_eq]
    exact scalarResult_finish ..
  case peek =>
    rw [exec_queue_peek h hi, answer, State.queueTop_eq]
    exact scalarResult_finish ..
  case stat =>
    rw [exec_queue_stat h hi, answer, State.queueStatus_eq s (fieldQueue q) hlen]
    exact scalarResult_finish ..
  case vector =>
    rw [exec_queue_vector h b a t r i hi]
    exact unimplemented_raised s

end Sys2Proof.Machine
end

section
/-! SUPPORT. EXEC and MYST (46 R550 to R552): the word each runs, and what running it answers. -/

namespace Sys2Proof.Machine

theorem setWidth_eq_extract (a : Word) : a.setWidth 36 = a.extractLsb' 0 36 := by
  apply BitVec.eq_of_getLsbD_eq
  intro i hi
  simp [hi]

/-! ### EXEC -/

theorem exec_exec_eq (ra : BitVec 5) (s : State) : exec (.exec (.x ra)) s =
    ranDecoded (decode ((s.readX ra).extractLsb' 0 36)) { s with mods := Mods.none } := by
  rw [exec_exec, execExec, runWord_eq, setWidth_eq_extract]

theorem append_field {n k : Nat} (x : BitVec n) (a : BitVec k) (b : BitVec 5) :
    (x ++ a ++ b : BitVec (n + k + 5)) = (x ++ (a ++ b) : BitVec (n + (k + 5))) := by
  apply BitVec.eq_of_getLsbD_eq
  intro i hi
  simp only [BitVec.getLsbD_append, Nat.sub_sub]
  by_cases h5 : i < 5
  · rw [if_pos h5, if_pos (by omega), if_pos h5]
  · rw [if_neg h5, if_neg h5]
    have hk : i - 5 < k ↔ i < k + 5 := by omega
    simp only [hk, Nat.add_comm]

/-- The word of a scalar ADD (40 R200). -/
theorem decode_add (p q rt : BitVec 5) :
    decode (0x04#7 ++ 0#2 ++ 0#2 ++ p ++ 0#1 ++ q ++ 0#1 ++ rt ++ 0#1 ++ 0x02#7) =
      .ok (.add false ⟨.x p, .x q, .x rt⟩) := by
  rw [append_field, append_field, append_field]
  exact Laws.RoundTrip.add false ⟨.x p, .x q, .x rt⟩ rfl

/-- A scalar ADD with legal modifiers. -/
theorem exec_add_scalar {s : State} (h : s.scalarReady) (p q rt : BitVec 5) :
    ScalarResult (exec (.add false ⟨.x p, .x q, .x rt⟩) s) s (s.ip + 9#64) rt (s.readX q + s.readX p) := by
  have hrule := opR2_rule h.1 sext6 false ⟨.x p, .x q, .x rt⟩ (fun a b => a + b)
  unfold ElementRule at hrule
  rw [h.2] at hrule
  exact hrule

/-- Settles O27: EXEC runs the decoded word in the state without modifiers (`exec_exec_eq`). -/
theorem execRunsRegister : Obligations.ExecRunsRegister := by
  intro s ra
  rw [exec_exec_eq]
  refine ⟨fun i hi hrun => ?_, fun i hi hrun => ?_, fun e he => ?_, fun p q rt hw => ?_, unimplemented_raised s⟩
  · obtain ⟨t, ht, -⟩ := exec_keeps i { s with mods := Mods.none }
    rw [hi, ranDecoded, if_pos hrun]
    exact ⟨rfl, t, ht⟩
  · rw [hi, ranDecoded, if_neg (by rw [hrun]; decide)]
    exact unimplemented_raised _
  · rw [he, ranDecoded]
    exact unimplemented_raised _
  · rw [hw, decode_add]
    exact exec_add_scalar (s := { s with mods := Mods.none }) (scalarReady_of_none rfl) p q rt

/-! ### MYST -/

theorem riRoot_iff (r : BitVec 7) : riRoot r = true ↔ r ∈ riRoots := by
  revert r
  decide

theorem r2Func_iff (f : BitVec 7) : r2Func f = true ↔ f ∈ r2Funcs := by
  revert f
  decide

theorem mystWord_of_imod {s : State} {im : ImodOps} {w : Word} (him : s.mods.imod = some im)
    (hw : scalarSource (·.signExtend 64) s im.d = some w) : mystWord s = w.extractLsb' 0 36 := by
  rw [scalarSource_eq _ s im.d Config.default.first, Option.ite_none_right_eq_some] at hw
  obtain ⟨-, hvalue⟩ := hw
  obtain rfl := Option.some.inj hvalue
  rw [mystWord, State.specD, him, setWidth_eq_extract]
  rfl

theorem mystWord_none {s : State} (h : s.mods.imod = none) : mystWord s = 0#36 := by
  rw [mystWord, State.specD, h]
  rfl

/-- An IMOD whose D is a vector register does not agree with v = 0 (30 R130). -/
theorem scalarSource_of_modsLegal {s : State} {im : ImodOps} (him : s.mods.imod = some im)
    (hm : s.modsLegal false = true) (ext : BitVec 6 → Word) : ∃ w, scalarSource ext s im.d = some w := by
  rw [State.modsLegal, State.specD, him] at hm
  simp only [Bool.and_eq_true] at hm
  obtain ⟨⟨-, hd⟩, -⟩ := hm
  change im.d.legal false = true at hd
  rw [scalarSource_eq _ s im.d Config.default.first, if_pos hd]
  exact ⟨_, rfl⟩

/-- The two forms of MYST where they run a word. -/
theorem exec_mystImmediate_runs {s : State} (h : s.scalarReady) (o : RI) :
    exec (.mystImmediate o) s = if riRoot (rootOf (mystWord s))
      then runWord (RI.enc (rootOf (mystWord s)) false o) s.atWord else .next s.unimplemented := by
  rw [exec_mystImmediate, execMystImmediate, plainOut_next h.1 h.2]

theorem exec_myst_runs {s : State} (h : s.scalarReady) (p : R2) :
    exec (.myst p) s = if rootOf (mystWord s) = 0x02#7 ∧ r2Func (funcOf (mystWord s)) = true
      then runWord (R2.enc 0x02#7 (funcOf (mystWord s)) false ((mystWord s).extractLsb' 27 2) p) s.atWord
      else .next s.unimplemented := by
  rw [exec_myst, execMyst, plainOut_next h.1 h.2]
  simp

/-- A word of one of the plain rows run at `own`: the instruction it decodes to, or Unimplemented. -/
theorem runWord_decoded {w : BitVec 36} (h : Reads isPlainRow (decode w)) (own : State) {r : Out}
    (hr : r = runWord w own) : match decode w with
      | .ok i => ∃ t, exec i own = .next t ∧ r = .next t
      | .error _ => Unimplemented r own := by
  rw [runWord_plainRow h] at hr
  cases hd : decode w with
  | error e =>
    rw [hr, hd]
    exact unimplemented_raised own
  | ok i =>
    obtain ⟨t, ht, -⟩ := exec_keeps i own
    refine ⟨t, ht, ?_⟩
    rw [hr, hd, runDecoded, ht]

theorem atWord_scalarReady {s : State} (h : s.scalarReady) : s.atWord.scalarReady := h

theorem exec_addImmediate_scalar {s : State} (h : s.scalarReady) (k : BitVec 16) (ra rt : BitVec 5) :
    ScalarResult (exec (.addImmediate false ⟨k, .x ra, .x rt⟩) s) s (s.ip + 9#64) rt
      (s.readX ra + s.imm16 .signed k) := by
  have hrule := opRI_rule h.1 .signed false ⟨k, .x ra, .x rt⟩ (fun a b => a + b)
  unfold ElementRule at hrule
  rw [h.2] at hrule
  exact hrule

theorem imm16_of_exi_none {s : State} (h : s.mods.exi = Mods.none.exi) (k : BitVec 16) :
    s.imm16 .signed k = k.signExtend 64 := by
  unfold State.imm16
  rw [h]
  rfl

/-- With D the word of an immediate ADD. -/
theorem myst_addImmediate {s : State} (h : s.scalarReady) (hexi : s.mods.exi = Mods.none.exi) {r : Out}
    (k : BitVec 16) (ra rt : BitVec 5)
    (hr : r = runWord (RI.enc 0x04#7 false ⟨k, .x ra, .x rt⟩) s.atWord) :
    ScalarResult r s (s.ip + 9#64) rt (s.readX ra + k.signExtend 64) := by
  have hdecode : decode (RI.enc 0x04#7 false ⟨k, .x ra, .x rt⟩) = .ok (.addImmediate false ⟨k, .x ra, .x rt⟩) :=
    Laws.RoundTrip.addImmediate false ⟨k, .x ra, .x rt⟩ rfl
  rw [runWord_plainRow (reads_mystImmediate rfl _), hdecode, runDecoded] at hr
  have hadd := exec_addImmediate_scalar (atWord_scalarReady h) k ra rt
  rw [imm16_of_exi_none (s := s.atWord) hexi, ← hr] at hadd
  exact hadd

/-- With D the word of an ADD. -/
theorem myst_add {s : State} (h : s.scalarReady) {r : Out} (opt : BitVec 2) (rb ra rt : BitVec 5)
    (hr : r = runWord (R2.enc 0x02#7 0x04#7 false opt ⟨.x rb, .x ra, .x rt⟩) s.atWord) :
    ScalarResult r s (s.ip + 9#64) rt (s.readX ra + s.readX rb) := by
  have hdecode : decode (R2.enc 0x02#7 0x04#7 false opt ⟨.x rb, .x ra, .x rt⟩) =
      .ok (.add false ⟨.x rb, .x ra, .x rt⟩) := by
    rw [decode_arm (R2.enc_root ..) (R2.enc_vBit ..), R2.enc_func]
    show Except.ok (Instr.add (vBit (R2.enc 0x02#7 0x04#7 false opt ⟨.x rb, .x ra, .x rt⟩))
      (R2.dec (R2.enc 0x02#7 0x04#7 false opt ⟨.x rb, .x ra, .x rt⟩))) = _
    rw [R2.enc_vBit, R2.enc_dec]
  rw [runWord_plainRow (reads_myst rfl _ _), hdecode, runDecoded] at hr
  have hadd := exec_add_scalar (atWord_scalarReady h) rb ra rt
  rw [← hr] at hadd
  exact hadd

theorem myst_fields (d : BitVec 36) (p : R2) :
    R2.enc 0x02#7 (funcOf d) false (d.extractLsb' 27 2) p =
      d.extractLsb' 27 9 ++ p.b.enc ++ p.a.enc ++ p.t.enc ++ 0#1 ++ 0x02#7 := by
  have hjoin : funcOf d ++ d.extractLsb' 27 2 = d.extractLsb' 27 9 := ext_join d 27 2 7
  rw [R2.enc, hjoin]
  rfl

/-- Settles O28: MYST runs its own word with D's root or function code (`exec_mystImmediate_runs`, `exec_myst_runs`),
which decodes to a plain row or lies in a blank cell (`runWord_decoded`). -/
theorem mystRunsWord : Obligations.MystRunsWord := by
  intro s o p hbrmod
  have hblank (hm : s.modsLegal false = false) :
      Unimplemented (exec (.mystImmediate o) s) s ∧ Unimplemented (exec (.myst p) s) s := by
    rw [exec_mystImmediate, exec_myst, execMystImmediate, execMyst, plainOut_unimplemented (.inr hm),
      plainOut_unimplemented (.inr hm)]
    exact ⟨unimplemented_raised s, unimplemented_raised s⟩
  refine ⟨fun hnone => ?_, hblank, fun im him hm => ?_⟩
  · cases hm : s.modsLegal false
    · exact hblank hm
    · rw [exec_mystImmediate_runs ⟨hbrmod, hm⟩, exec_myst_runs ⟨hbrmod, hm⟩, mystWord_none hnone]
      exact ⟨unimplemented_raised s, unimplemented_raised s⟩
  · have hready : s.scalarReady := ⟨hbrmod, hm⟩
    obtain ⟨w, hw⟩ := scalarSource_of_modsLegal him hm (·.signExtend 64)
    have hri := exec_mystImmediate_runs hready o
    have hr2 := exec_myst_runs hready p
    rw [mystWord_of_imod him hw] at hri hr2
    rw [hw]
    dsimp only
    generalize w.extractLsb' 0 36 = d at hri hr2 ⊢
    refine ⟨fun hroot => ?_, fun hroot => ?_, fun hfunc => ?_, fun hroot hfunc => ?_, fun hroot hexi k ra rt ho => ?_,
      fun hroot hfunc rb ra rt hp => ?_⟩
    · rw [hri, if_neg (by rwa [riRoot_iff])]
      exact unimplemented_raised s
    · rw [if_pos ((riRoot_iff _).2 hroot)] at hri
      exact runWord_decoded (reads_mystImmediate ((riRoot_iff _).2 hroot) o) s.atWord hri
    · rw [hr2, if_neg (by rw [r2Func_iff]; tauto)]
      exact unimplemented_raised s
    · rw [if_pos ⟨hroot, (r2Func_iff _).2 hfunc⟩] at hr2
      have h := runWord_decoded (reads_myst ((r2Func_iff _).2 hfunc) _ p) s.atWord hr2
      rwa [myst_fields] at h
    · subst ho
      rw [hroot, if_pos (show riRoot 0x04#7 = true from rfl)] at hri
      exact myst_addImmediate hready hexi k ra rt hri
    · subst hp
      rw [hfunc, if_pos ⟨hroot, rfl⟩] at hr2
      exact myst_add hready _ rb ra rt hr2

end Sys2Proof.Machine
end

section
/-! SUPPORT. The instructions that raise Unimplemented: the rows without a meaning (30 R140), and those that a modifier
before them does not allow (45 R483, 48 R672, 30 R130). -/

namespace Sys2Proof.Machine

/-- Settles O30: each of these rows is `State.unimplemented` by its definition. -/
theorem unimplementedRows : Obligations.UnimplementedRows := by
  intro i s h
  cases i
  all_goals first | exact (Bool.false_ne_true h).elim | exact unimplemented_raised s

/-! ### A vector register in a modifier -/

theorem optLegal_false_iff (o : Option OSpec) : optLegal false o = false ↔ ∃ r, o = some (.v r) := by
  obtain _ | (r | r | c) := o <;> simp [optLegal, OSpec.legal]

theorem modsLegal_iff (s : State) : s.modsLegal false = false ↔ VectorModifier s := by
  simp only [State.modsLegal, Bool.and_eq_false_iff, optLegal_false_iff, State.specC, State.specD, State.specStride,
    Option.map_eq_some_iff, VectorModifier]
  constructor
  · rintro ((⟨r, im, him, hc⟩ | ⟨r, im, him, hd⟩) | ⟨r, st, hst, hc⟩)
    · exact .inl ⟨im, r, him, .inl hc⟩
    · exact .inl ⟨im, r, him, .inr hd⟩
    · exact .inr ⟨st, r, hst, hc⟩
  · rintro (⟨im, r, him, hc | hd⟩ | ⟨st, r, hst, hc⟩)
    · exact .inl (.inl ⟨r, im, him, hc⟩)
    · exact .inl (.inr ⟨r, im, him, hd⟩)
    · exact .inr ⟨r, st, hst, hc⟩

/-! ### Guards -/

theorem short_guard {i : Instr} {s : State} (hi : i.isShort = true) (hs : s.mods.start.isSome = true) :
    exec i s = .next s.unimplemented := by
  cases i
  all_goals first | exact (Bool.false_ne_true hi).elim | exact if_pos hs | rfl

/-- A field search ends as every other 36-bit instruction does. -/
theorem opIndex_guard {w n : Nat} {v : Bool} {a t : RSpec} {keyLegal : Bool} {key : Fin 64 → BitVec w} {s : State}
    (h : s.mods.brmod.isSome = true ∨ s.modsLegal v = false) :
    opIndex n v a t keyLegal key s = .next s.unimplemented := by
  unfold opIndex
  split
  · exact plainOut_unimplemented h _
  · exact plainOut_unimplemented h _

/-- A BRMOD word before anything but a conditional branch, a further modifier or EXEC (45 R483). -/
theorem brmod_guard {i : Instr} {s : State} (hb : s.mods.brmod.isSome = true) (hshort : i.isShort = false)
    (hmod : i.isModifier = false) (hbranch : takesBrmod i = false) (hexec : ∀ a, i ≠ .exec a) :
    exec i s = .next s.unimplemented := by
  cases i
  all_goals first
    | exact (Bool.false_ne_true hshort.symm).elim
    | exact (Bool.false_ne_true hmod.symm).elim
    | exact (Bool.false_ne_true hbranch.symm).elim
    | exact absurd rfl (hexec _)
    | exact plainOut_unimplemented (.inl hb) _
    | exact congrArg _ (if_pos hb)
    | exact opIndex_guard (.inl hb)
    | rfl

/-! ### A vector register in a modifier before a word with v = 0

Every word of the scalar page that EXEC may run, but for those of the {VM} group, raises Unimplemented. -/

section
variable {s : State} (hm : s.modsLegal false = false) (w : BitVec 36)

theorem runDf2_guard (func : Nat) : runDf2 func w s = .next s.unimplemented := by
  unfold runDf2
  split <;> rfl

theorem runPst2_guard (func : Nat) : runPst2 func w s = .next s.unimplemented := by
  unfold runPst2
  split <;> rfl

include hm

theorem runSys_guard (func : Nat) : runSys func false w s = .next s.unimplemented := by
  have hfield (b : Bool) (r : Out) : (if b then .next s.unimplemented else plainOut false s r) =
      Host.Outcome.next s.unimplemented := ite_eq_left_iff.2 fun _ => plainOut_unimplemented (.inr hm) r
  unfold runSys
  split
  all_goals first | exact plainOut_unimplemented (.inr hm) _ | exact hfield _ _ | rfl

theorem runCsr_guard (op : Nat) : runCsr op false w s = .next s.unimplemented := by
  unfold runCsr
  rw [if_neg Bool.false_ne_true]
  split
  all_goals exact plainOut_unimplemented (.inr hm) _

theorem runLoad60_guard (func4 : Nat) : runLoad60 func4 w s = .next s.unimplemented := by
  unfold runLoad60
  split
  all_goals first | exact plainOut_unimplemented (.inr hm) _ | rfl

theorem runLoad61_guard (func4 : Nat) : runLoad61 func4 w s = .next s.unimplemented := by
  unfold runLoad61
  split
  all_goals first | exact plainOut_unimplemented (.inr hm) _ | rfl

theorem runLoad64_guard (func4 : Nat) : runLoad64 func4 w s = .next s.unimplemented := by
  unfold runLoad64
  split
  all_goals first | exact plainOut_unimplemented (.inr hm) _ | rfl

theorem runLoad65_guard (func4 : Nat) : runLoad65 func4 w s = .next s.unimplemented := by
  unfold runLoad65
  split
  all_goals first | exact plainOut_unimplemented (.inr hm) _ | rfl

theorem runPop_guard (func4 : Nat) : runPop func4 w s = .next s.unimplemented := by
  unfold runPop
  split
  all_goals first | exact plainOut_unimplemented (.inr hm) _ | rfl

theorem runStore68_guard (func4 : Nat) : runStore68 func4 w s = .next s.unimplemented := by
  unfold runStore68
  split
  all_goals first | exact plainOut_unimplemented (.inr hm) _ | rfl

theorem runStore69_guard (func4 : Nat) : runStore69 func4 w s = .next s.unimplemented := by
  unfold runStore69
  split
  all_goals first | exact plainOut_unimplemented (.inr hm) _ | rfl

theorem runPush_guard (func4 : Nat) : runPush func4 w s = .next s.unimplemented := by
  unfold runPush
  split
  all_goals first | exact plainOut_unimplemented (.inr hm) _ | rfl

/-- No conditional branch runs after a modifier with a vector register (30 R130). -/
theorem branch_guard (ext : BitVec 6 → Word) (o : Branch) (cond : Word → Word → Bool) :
    branch ext o cond s = .next s.unimplemented := by
  unfold branch
  rw [hm, Bool.and_false]
  rfl

variable {w} (hv : vBit w = false)
include hv

theorem runR1_guard (func : Nat) : runR1 func false w s = .next s.unimplemented := by
  unfold runR1
  rw [hv]
  split
  all_goals first | exact plainOut_unimplemented (.inr hm) _ | exact opIndex_guard (.inr hm) | rfl

theorem runR2_guard (func : Nat) : runR2 func false w s = .next s.unimplemented := by
  unfold runR2
  rw [hv]
  split
  all_goals first | exact plainOut_unimplemented (.inr hm) _ | exact opIndex_guard (.inr hm) | rfl

theorem runR3_guard (func : Nat) : runR3 func w s = .next s.unimplemented := by
  unfold runR3
  rw [hv]
  split
  all_goals first | exact plainOut_unimplemented (.inr hm) _ | exact opIndex_guard (.inr hm) | rfl

theorem runBytndx_guard (func4 : Nat) : runBytndx func4 w s = .next s.unimplemented := by
  unfold runBytndx
  rw [hv]
  split
  all_goals first | exact plainOut_unimplemented (.inr hm) _ | exact opIndex_guard (.inr hm) | rfl

theorem runBtfld_guard (func : Nat) : runBtfld func w s = .next s.unimplemented := by
  unfold runBtfld
  rw [hv]
  split
  all_goals first | exact plainOut_unimplemented (.inr hm) _ | exact opIndex_guard (.inr hm) | rfl

theorem runDf1_guard (func : Nat) : runDf1 func w s = .next s.unimplemented := by
  unfold runDf1
  rw [hv]
  split
  all_goals first | exact plainOut_unimplemented (.inr hm) _ | exact opIndex_guard (.inr hm) | rfl

theorem runF1_guard (func : Nat) : runF1 func w s = .next s.unimplemented := by
  unfold runF1
  rw [hv]
  split
  all_goals first | exact plainOut_unimplemented (.inr hm) _ | exact opIndex_guard (.inr hm) | rfl

theorem runF2_guard (func : Nat) : runF2 func w s = .next s.unimplemented := by
  unfold runF2
  rw [hv]
  split
  all_goals first | exact plainOut_unimplemented (.inr hm) _ | exact opIndex_guard (.inr hm) | rfl

theorem runF3_guard (func : Nat) : runF3 func w s = .next s.unimplemented := by
  unfold runF3
  rw [hv]
  split
  all_goals first | exact plainOut_unimplemented (.inr hm) _ | exact opIndex_guard (.inr hm) | rfl

theorem runPst1_guard (func : Nat) : runPst1 func w s = .next s.unimplemented := by
  unfold runPst1
  rw [hv]
  split
  all_goals first | exact plainOut_unimplemented (.inr hm) _ | exact opIndex_guard (.inr hm) | rfl

theorem runRoot_guard {root : Nat} (hroot : root ≠ 0x3e) (func func4 : Nat) :
    runRoot root func func4 false w s = .next s.unimplemented := by
  unfold runRoot
  rw [hv]
  split
  case h_53 => exact absurd rfl hroot
  all_goals first
    | exact plainOut_unimplemented (.inr hm) _
    | exact opIndex_guard (.inr hm)
    | rfl
    | exact runR1_guard hm hv func
    | exact runR2_guard hm hv func
    | exact runR3_guard hm hv func
    | exact runSys_guard hm w func
    | exact runCsr_guard hm w _
    | exact runBytndx_guard hm hv func4
    | exact runBtfld_guard hm hv func
    | exact runDf1_guard hm hv func
    | exact runDf2_guard w func
    | exact runF1_guard hm hv func
    | exact runF2_guard hm hv func
    | exact runF3_guard hm hv func
    | exact runPst1_guard hm hv func
    | exact runPst2_guard w func
    | exact runLoad60_guard hm w func4
    | exact runLoad61_guard hm w func4
    | exact runLoad64_guard hm w func4
    | exact runLoad65_guard hm w func4
    | exact runPop_guard hm w func4
    | exact runStore68_guard hm w func4
    | exact runStore69_guard hm w func4
    | exact runPush_guard hm w func4
    | exact branch_guard hm sext6 (Branch.dec w) _
    | exact branch_guard hm zext6 (Branch.dec w) _
    | exact branch_guard hm float6 (Branch.dec w) _
    | exact branch_guard hm float6 (Branch.dec w) fun a b => !fpEq a b
    | exact branch_guard hm sext6 (Branch.dec w) fun a b => !ltS a b
    | exact branch_guard hm zext6 (Branch.dec w) fun a b => !ltU a b

end

/-- All but MYST are instructions that EXEC may run. -/
theorem runsInExec_or_guard {i : Instr} {s : State} (hm : s.modsLegal false = false)
    (hshort : i.isShort = false) (hmod : i.isModifier = false) (hexec : ∀ a, i ≠ .exec a) :
    i.runsInExec = true ∨ exec i s = .next s.unimplemented := by
  cases i
  case myst | mystImmediate => exact .inr (plainOut_unimplemented (.inr hm) _)
  all_goals first
    | exact (Bool.false_ne_true hshort.symm).elim
    | exact (Bool.false_ne_true hmod.symm).elim
    | exact absurd rfl (hexec _)
    | exact .inl rfl

/-- A vector register in an IMOD or STRIDE word before a word of the scalar page outside the {VM} group (30 R130). -/
theorem vector_guard {i : Instr} {s : State} (hm : s.modsLegal false = false) (hv : i.encode.getLsbD 7 = false)
    (hroot : i.encode.extractLsb' 0 7 ≠ 0x3e#7) (hshort : i.isShort = false) (hmod : i.isModifier = false)
    (hexec : ∀ a, i ≠ .exec a) : exec i s = .next s.unimplemented := by
  refine (runsInExec_or_guard hm hshort hmod hexec).elim (fun hrun => ?_) id
  have hwf : i.wellFormed = true := by
    cases i
    all_goals first | exact (Bool.false_ne_true hshort.symm).elim | rfl
  have hvBit : vBit i.encode = false := by
    rw [vBit, bit, beq_eq_false_iff_ne, ne_eq, getLsbD_extract_bit, hv]
    exact Bool.false_ne_true
  calc exec i s = ranDecoded (decode i.encode) s := by
        rw [Laws.RoundTrip.statement_of_instr i hwf, ranDecoded, if_pos hrun]
    _ = runWord i.encode s := (runWord_eq ..).symm
    _ = runRoot (rootOf i.encode).toNat (funcOf i.encode).toNat (func4Of i.encode).toNat (vBit i.encode) i.encode s := rfl
    _ = .next s.unimplemented := by
        rw [hvBit]
        exact runRoot_guard hm hvBit (fun h => hroot (BitVec.eq_of_toNat_eq h)) _ _

/-- Settles O29: the three guards, and what a legal modifier is. -/
theorem misplacedModifiers : Obligations.MisplacedModifiers := by
  intro i s
  refine ⟨fun hb hs hm hbr he => ?_, fun hst hs => ?_, fun hv hs hm hbit hroot he => ?_, modsLegal_iff s,
    modsLegal_true s⟩
  · rw [brmod_guard hb hs hm hbr he]
    exact unimplemented_raised s
  · rw [short_guard hs hst]
    exact unimplemented_raised s
  · rw [vector_guard ((modsLegal_iff s).2 hv) hbit hroot hs hm he]
    exact unimplemented_raised s

end Sys2Proof.Machine
end

section
/-! SUPPORT. The integer operations that follow the element rule: a row of a table is the shared operation of its
format, with a function that Laws/Alu states exactly. -/

namespace Sys2Proof.Machine

/-! ### A row of each format -/

theorem toNat_zext6 (c : BitVec 6) : (zext6 c).toNat % 64 = c.toNat := by
  simp only [zext6, BitVec.toNat_setWidth]
  omega

section
variable {x : BitVec 6 → Word}

theorem r1_row {c : Bool → R1 → Instr} {f g : Word → Word} (hg : ∀ a, f a = g a)
    (hc : ∀ v o (s : State), exec (c v o) s = opR1 v o f s) (s : State) (v : Bool) (o : R1)
    (h : s.mods.brmod = none) :
    ElementRule (exec (c v o) s) s v o.t (o.a.legal v) (s.readM o.m, o.z) fun e => g (o.a.value s e) := by
  rw [hc]
  exact (opR1_rule h v o f).congr fun _ => hg _

theorem r2_row {c : Bool → R2 → Instr} {f g : Word → Word → Word} (hg : ∀ a b, f a b = g a b)
    (hc : ∀ v o (s : State), exec (c v o) s = opR2 x v o f s) {s : State} {v : Bool}
    (h : s.mods.brmod = none) (o : R2) :
    ElementRule (exec (c v o) s) s v o.t (o.a.legal v && o.b.legal v) s.imodMask fun e =>
      g (o.a.value s e) (o.b.value x s e) := by
  rw [hc]
  exact (opR2_rule h x v o f).congr fun _ => hg _ _

theorem r2i_row {c : Bool → R2I → Instr} {f : Word → Word → Word} {g : Word → Nat → Word}
    (hg : ∀ a b, f a b = g a (b.toNat % 64)) (hc : ∀ v o (s : State), exec (c v o) s = opR2I v o f s) {s : State}
    {v : Bool} (h : s.mods.brmod = none) (o : R2I) :
    ElementRule (exec (c v o) s) s v o.t (o.a.legal v) s.imodMask fun e => g (o.a.value s e) o.imm.toNat := by
  rw [hc]
  exact (opR2I_rule h v o f).congr fun _ => by rw [hg, toNat_zext6]

theorem ri_row {c : Bool → RI → Instr} {k : ImmExt} {f g : Word → Word → Word} (hg : ∀ a b, f a b = g a b)
    (hc : ∀ v o (s : State), exec (c v o) s = opRI k v o f s) (s : State) (v : Bool) (o : RI)
    (h : s.mods.brmod = none) :
    ElementRule (exec (c v o) s) s v o.t (o.a.legal v) s.imodMask fun e => g (o.a.value s e) (s.imm16 k o.imm) := by
  rw [hc]
  exact (opRI_rule h k v o f).congr fun _ => hg _ _

end

/-! ### One source -/

theorem sextLow_eq {n : Nat} (hn : n ≤ 64) (a : Word) : Word.sextLow n a = (a.extractLsb' 0 n).signExtend 64 := by
  rw [Word.sextLow, BitVec.setWidth_eq_extractLsb' hn]

/-- Settles O31: each row is `opR1` of a function that Laws/Alu states. -/
theorem oneSourceInteger : Obligations.OneSourceInteger := by
  unfold Obligations.OneSourceInteger Sys2Proof.oneSourceInteger
  simp only [List.forall_mem_cons, List.not_mem_nil, false_implies, implies_true, and_true]
  exact ⟨
    r1_row cntlzWord_eq fun _ _ _ => rfl,
    r1_row cntloWord_eq fun _ _ _ => rfl,
    r1_row cntpopWord_eq fun _ _ _ => rfl,
    r1_row (f := fun a => ~~~a) (fun _ => rfl) fun _ _ _ => rfl,
    r1_row (fun a => ofBool_beq a 0#64) fun _ _ _ => rfl,
    r1_row (fun a => (ofInt_neg_toInt a).symm) fun _ _ _ => rfl,
    r1_row absWord_eq fun _ _ _ => rfl,
    r1_row nabsWord_eq fun _ _ _ => rfl,
    r1_row sqrtWord_eq fun _ _ _ => rfl,
    r1_row zextLow_8 fun _ _ _ => rfl,
    r1_row zextLow_16 fun _ _ _ => rfl,
    r1_row zextLow_32 fun _ _ _ => rfl,
    r1_row (sextLow_eq (show 8 ≤ 64 by decide)) fun _ _ _ => rfl,
    r1_row (sextLow_eq (show 16 ≤ 64 by decide)) fun _ _ _ => rfl,
    r1_row (sextLow_eq (show 32 ≤ 64 by decide)) fun _ _ _ => rfl⟩

/-! ### Two sources -/

theorem ofBool_ltS (a b : Word) : Word.ofBool (ltS a b) = if a.slt b then 1#64 else 0#64 := by
  rw [ltS_slt]
  rfl

theorem ofBool_not_ltS (a b : Word) : Word.ofBool (!ltS a b) = if b.sle a then 1#64 else 0#64 := by
  rw [not_ltS]
  rfl

theorem ofBool_ltU (a b : Word) : Word.ofBool (ltU a b) = if a < b then 1#64 else 0#64 := by
  simp only [Word.ofBool, ltU_iff]

theorem ofBool_not_ltU (a b : Word) : Word.ofBool (!ltU a b) = if b ≤ a then 1#64 else 0#64 := by
  simp only [Word.ofBool, not_ltU, decide_eq_true_eq]

theorem imodMask_of_mask {s : State} {im : ImodOps} (h : s.mods.imod = some im) (ha : im.a.getLsbD 0 = true) :
    s.imodMask = (s.readM im.m, im.z) := by
  rw [State.imodMask, h]
  exact if_pos ((getLsbD_extract_bit im.a 0).mpr ha)

theorem imodMask_of_no_mask {s : State} (h : ∀ im, s.mods.imod = some im → im.a.getLsbD 0 = false) :
    s.imodMask = (BitVec.allOnes 64, false) := by
  cases hi : s.mods.imod with
  | none => rw [State.imodMask, hi]
  | some im =>
    rw [State.imodMask, hi]
    refine if_neg fun ha => ?_
    rw [getLsbD_extract_bit, h im hi] at ha
    exact Bool.false_ne_true ha

theorem twoSource_rows {s : State} {v : Bool} (h : s.mods.brmod = none) : ∀ row ∈ twoSourceInteger, ∀ o : R2,
    ElementRule (exec (row.1 v o) s) s v o.t (o.a.legal v && o.b.legal v) s.imodMask fun e =>
      row.2.2 (o.a.value s e) (o.b.value row.2.1 s e) := by
  unfold twoSourceInteger
  simp only [List.forall_mem_cons, List.not_mem_nil, false_implies, implies_true, and_true]
  exact ⟨
    r2_row (f := fun a b => a &&& b) (fun _ _ => rfl) (fun _ _ _ => rfl) h,
    r2_row (f := fun a b => a ||| b) (fun _ _ => rfl) (fun _ _ _ => rfl) h,
    r2_row (f := fun a b => a ^^^ b) (fun _ _ => rfl) (fun _ _ _ => rfl) h,
    r2_row (f := fun a b => ~~~(a &&& b)) (fun _ _ => rfl) (fun _ _ _ => rfl) h,
    r2_row (f := fun a b => ~~~(a ||| b)) (fun _ _ => rfl) (fun _ _ _ => rfl) h,
    r2_row (f := fun a b => ~~~(a ^^^ b)) (fun _ _ => rfl) (fun _ _ _ => rfl) h,
    r2_row add_exact (fun _ _ _ => rfl) h,
    r2_row sub_exact (fun _ _ _ => rfl) h,
    r2_row (f := difWord) (fun _ _ => absWord_eq _) (fun _ _ _ => rfl) h,
    r2_row cmp3_eq (fun _ _ _ => rfl) h,
    r2_row minWord_eq (fun _ _ _ => rfl) h,
    r2_row maxWord_eq (fun _ _ _ => rfl) h,
    r2_row ofBool_beq (fun _ _ _ => rfl) h,
    r2_row ofBool_bne (fun _ _ _ => rfl) h,
    r2_row ofBool_ltS (fun _ _ _ => rfl) h,
    r2_row ofBool_not_ltS (fun _ _ _ => rfl) h,
    r2_row ofBool_ltU (fun _ _ _ => rfl) h,
    r2_row ofBool_not_ltU (fun _ _ _ => rfl) h,
    r2_row mulu_exact (fun _ _ _ => rfl) h,
    r2_row (f := mulsuWord) (fun _ _ => rfl) (fun _ _ _ => rfl) h,
    r2_row mulfWord_eq (fun _ _ _ => rfl) h,
    r2_row mulhWord_eq (fun _ _ _ => rfl) h,
    r2_row mulsuhWord_eq (fun _ _ _ => rfl) h,
    r2_row muluhWord_eq (fun _ _ _ => rfl) h,
    r2_row sllWord_eq (fun _ _ _ => rfl) h,
    r2_row srlWord_eq (fun _ _ _ => rfl) h,
    r2_row sraWord_eq (fun _ _ _ => rfl) h,
    r2_row rolWord_eq (fun _ _ _ => rfl) h,
    r2_row rorWord_eq (fun _ _ _ => rfl) h⟩

theorem shiftByNumber_rows {s : State} {v : Bool} (h : s.mods.brmod = none) : ∀ row ∈ shiftsByNumber, ∀ o : R2I,
    ElementRule (exec (row.1 v o) s) s v o.t (o.a.legal v) s.imodMask fun e =>
      row.2 (o.a.value s e) o.imm.toNat := by
  unfold shiftsByNumber
  simp only [List.forall_mem_cons, List.not_mem_nil, false_implies, implies_true, and_true]
  exact ⟨
    r2i_row (g := fun a n => BitVec.ofNat 64 (a.toNat * 2 ^ n)) sllWord_eq (fun _ _ _ => rfl) h,
    r2i_row (g := fun a n => BitVec.ofNat 64 (a.toNat / 2 ^ n)) srlWord_eq (fun _ _ _ => rfl) h,
    r2i_row (g := fun a n => BitVec.ofInt 64 (a.toInt / 2 ^ n)) sraWord_eq (fun _ _ _ => rfl) h,
    r2i_row (g := fun a n => a <<< n ||| a >>> (64 - n)) rolWord_eq (fun _ _ _ => rfl) h,
    r2i_row (g := fun a n => a >>> n ||| a <<< (64 - n)) rorWord_eq (fun _ _ _ => rfl) h⟩

/-- Settles O32: the mask of IMOD, the R2 rows and the shifts by a number. -/
theorem twoSourceInteger : Obligations.TwoSourceInteger := fun _ _ =>
  ⟨fun _ him ha => imodMask_of_mask him ha, imodMask_of_no_mask, fun h => ⟨twoSource_rows h, shiftByNumber_rows h⟩⟩

/-! ### A 16-bit constant -/

/-- Settles O33: each row is `opRI` of a function that Laws/Alu states. -/
theorem immediateInteger : Obligations.ImmediateInteger := by
  unfold Obligations.ImmediateInteger Sys2Proof.immediateInteger
  simp only [List.forall_mem_cons, List.not_mem_nil, false_implies, implies_true, and_true]
  exact ⟨
    ri_row add_exact fun _ _ _ => rfl,
    ri_row (f := fun a k => k - a) (fun a k => sub_exact k a) fun _ _ _ => rfl,
    ri_row mul_exact fun _ _ _ => rfl,
    ri_row (f := fun a k => a &&& k) (fun _ _ => rfl) fun _ _ _ => rfl,
    ri_row (f := fun a k => a ||| k) (fun _ _ => rfl) fun _ _ _ => rfl,
    ri_row (f := fun a k => a ^^^ k) (fun _ _ => rfl) fun _ _ _ => rfl,
    ri_row mulu_exact fun _ _ _ => rfl,
    ri_row (f := mulsuWord) (fun _ _ => rfl) fun _ _ _ => rfl,
    ri_row mulfWord_eq fun _ _ _ => rfl,
    ri_row ofBool_beq fun _ _ _ => rfl,
    ri_row ofBool_bne fun _ _ _ => rfl,
    ri_row ofBool_ltS fun _ _ _ => rfl,
    ri_row (f := fun a k => Word.ofBool (ltS k a)) (fun a k => ofBool_ltS k a) fun _ _ _ => rfl,
    ri_row ofBool_ltU fun _ _ _ => rfl,
    ri_row (f := fun a k => Word.ofBool (ltU k a)) (fun a k => ofBool_ltU k a) fun _ _ _ => rfl⟩

/-! ### Extended constants -/

section
variable {s : State} (k : ImmExt) (c : BitVec 16) {n : Nat} (d : BitVec n)

theorem exiConst_none {e : Vector (Option (BitVec 28)) 5} (h0 : e[0] = none) (h1 : e[1] = none) (f : BitVec 11) :
    exiConst e f = none := by
  rw [exiConst, h0, h1]

theorem exiConst_exi0 {e : Vector (Option (BitVec 28)) 5} {p0 : BitVec 28} (h0 : e[0] = some p0) (h1 : e[1] = none)
    (f : BitVec 11) : exiConst e f = some ((p0 ++ f).signExtend 64) := by
  rw [exiConst, h0, h1]

theorem exiConst_exi1 {e : Vector (Option (BitVec 28)) 5} {p0 p1 : BitVec 28} (h0 : e[0] = some p0)
    (h1 : e[1] = some p1) (f : BitVec 11) : exiConst e f = some ((p1 ++ p0 ++ f).setWidth 64) := by
  rw [exiConst, h0, h1]
  rfl

theorem imm16_none (h : exiConst s.mods.exi (c.setWidth 11) = none) :
    s.imm16 k c = (match k with
      | .signed => c.signExtend 64
      | .zeros => 0#48 ++ c
      | .ones => 0xffffffffffff#48 ++ c) := by
  cases k with
  | signed => simp only [State.imm16, h]
  | zeros =>
    simp only [State.imm16, h]
    exact (zero_append c).symm
  | ones =>
    simp only [State.imm16, h]
    rfl

theorem imm16_some {w : Word} (h : exiConst s.mods.exi (c.setWidth 11) = some w) : s.imm16 k c = w := by
  simp only [State.imm16, h]

theorem displacement_some {w : Word} (hs : s.mods.stride = none) (h : exiConst s.mods.exi (d.setWidth 11) = some w) :
    s.displacement d = w := by
  rw [State.displacement, hs, h]

theorem displacement_signed (hs : s.mods.stride = none) (h : exiConst s.mods.exi (d.setWidth 11) = none) :
    s.displacement d = d.signExtend 64 := by
  rw [State.displacement, hs, h]

theorem displacement_stride {st : StrideOps} (hs : s.mods.stride = some st)
    (h : exiConst s.mods.exi (d.setWidth 11) = none) : s.displacement d = (st.hi ++ d).signExtend 64 := by
  rw [State.displacement, hs, h]

end

/-- Settles O34: by what EXI0 and EXI1 hold, for a constant, a load's displacement and a store's. -/
theorem extendedConstants : Obligations.ExtendedConstants := by
  intro s c d b k p0 p1 st
  have hc : c.extractLsb' 0 11 = c.setWidth 11 := (BitVec.setWidth_eq_extractLsb' (by decide)).symm
  have hd : d.extractLsb' 0 11 = d.setWidth 11 := (BitVec.setWidth_eq_extractLsb' (by decide)).symm
  have hb : b.setWidth 11 = b := BitVec.setWidth_eq b
  refine ⟨fun h0 h1 => ?_, fun h0 h1 => ?_, fun h0 h1 => ?_⟩
  · have hn := exiConst_none h0 h1
    exact ⟨imm16_none k c (hn _), fun hs => ⟨displacement_signed d hs (hn _), displacement_signed b hs (hn _)⟩,
      fun hs => ⟨displacement_stride d hs (hn _), displacement_stride b hs (hn _)⟩⟩
  · have hx := exiConst_exi0 h0 h1
    rw [hc, hd]
    exact ⟨imm16_some k c (hx _), fun hs =>
      ⟨displacement_some d hs (hx _), displacement_some b hs (by rw [hb]; exact hx b)⟩⟩
  · have hx := exiConst_exi1 h0 h1
    rw [hc, hd]
    exact ⟨imm16_some k c (hx _), fun hs =>
      ⟨displacement_some d hs (hx _), displacement_some b hs (by rw [hb]; exact hx b)⟩⟩

/-! ### Divisions -/

theorem divsuWord_of_ne {a b : Word} (h : b ≠ 0#64) : divsuWord a b = BitVec.ofInt 64 (a.toInt.tdiv (b.toNat : Int)) :=
  if_neg h

theorem remsuWord_of_ne {a b : Word} (h : b ≠ 0#64) : remsuWord a b = BitVec.ofInt 64 (a.toInt.tmod (b.toNat : Int)) :=
  if_neg h

theorem r2_division {c : Bool → R2 → Instr} {x : BitVec 6 → Word} {f g : Word → Word → Word}
    (hg : ∀ a b, b ≠ 0#64 → f a b = g a b) (hc : ∀ v o (s : State), exec (c v o) s = opR2 x v o f s) :
    ∃ f : Word → Word → Word, (∀ a b, b ≠ 0#64 → f a b = g a b) ∧
      ∀ (s : State) (v : Bool) (o : R2), s.mods.brmod = none →
        ElementRule (exec (c v o) s) s v o.t (o.a.legal v && o.b.legal v) s.imodMask fun e =>
          f (o.a.value s e) (o.b.value x s e) :=
  ⟨f, hg, fun _ _ o h => r2_row (fun _ _ => rfl) hc h o⟩

theorem ri_division {c : Bool → RI → Instr} {k : ImmExt} {f : Word → Word → Word} {Q : Word → Word → Word → Prop}
    (hg : ∀ a b, Q a b (f a b)) (hc : ∀ v o (s : State), exec (c v o) s = opRI k v o f s) :
    ∃ f : Word → Word → Word, (∀ a b, Q a b (f a b)) ∧
      ∀ (s : State) (v : Bool) (o : RI), s.mods.brmod = none →
        ElementRule (exec (c v o) s) s v o.t (o.a.legal v) s.imodMask fun e =>
          f (o.a.value s e) (s.imm16 k o.imm) :=
  ⟨f, hg, ri_row (fun _ _ => rfl) hc⟩

/-- Settles O35: the function of each row is the model's own, which answers some word for a divisor 0. -/
theorem divisions : Obligations.Divisions := by
  unfold Obligations.Divisions registerDivisions immediateDivisions
  simp only [List.forall_mem_cons, List.not_mem_nil, false_implies, implies_true, and_true]
  exact ⟨⟨
      r2_division (fun _ _ => divuWord_of_ne) fun _ _ _ => rfl,
      r2_division (fun _ _ => remWord_of_ne) fun _ _ _ => rfl,
      r2_division (fun _ _ => remuWord_of_ne) fun _ _ _ => rfl,
      r2_division (fun _ _ => remsuWord_of_ne) fun _ _ _ => rfl⟩, ⟨
      ri_division (Q := fun a b w => b ≠ 0#64 → w = a.sdiv b) (fun _ _ => divWord_of_ne) fun _ _ _ => rfl,
      ri_division (Q := fun a b w => b ≠ 0#64 → w = a / b) (fun _ _ => divuWord_of_ne) fun _ _ _ => rfl,
      ri_division (Q := fun a b w => b ≠ 0#64 → w = BitVec.ofInt 64 (a.toInt.tdiv (b.toNat : Int)))
        (fun _ _ => divsuWord_of_ne) fun _ _ _ => rfl,
      ri_division (Q := fun a b w => b ≠ 0#64 → w = a.srem b) (fun _ _ => remWord_of_ne) fun _ _ _ => rfl,
      ri_division (Q := fun a b w => b ≠ 0#64 → w = a % b) (fun _ _ => remuWord_of_ne) fun _ _ _ => rfl,
      ri_division (Q := fun a b w => b ≠ 0#64 → w = BitVec.ofInt 64 (a.toInt.tmod (b.toNat : Int)))
        (fun _ _ => remsuWord_of_ne) fun _ _ _ => rfl⟩,
    ri_division (Q := fun a k w => a ≠ 0#64 → w = k.sdiv a) (fun _ _ => divrWord_of_ne) fun _ _ _ => rfl⟩

end Sys2Proof.Machine
end

section
/-! SUPPORT. The integer operations that may trap, the bit matrices, the field searches, and the operations with
IMOD's C and D. -/

namespace Sys2Proof.Machine

/-! ### Operations that may trap -/

theorem trap_row {c : Bool → BitVec 2 → R2 → Instr} {x : BitVec 6 → Word}
    {fail trap : BitVec 2 → Word → Word → Option (BitVec 8)} {f : Word → Word → Word} {g : Word → Word → Option Word}
    (hg : ∀ a b w, g a b = some w → f a b = w) (ht : ∀ opt a b, fail opt a b = trap opt a b)
    (hc : ∀ v opt o (s : State), exec (c v opt o) s = opR2Trap x v o (fail opt) f s) :
    ∃ f : Word → Word → Word, (∀ a b w, g a b = some w → f a b = w) ∧
      ∀ (s : State) (v : Bool) (opt : BitVec 2) (o : R2), s.mods.brmod = none →
        TrapRule (exec (c v opt o) s) s v o.t (o.a.legal v && o.b.legal v) s.imodMask
          (fun e => trap opt (o.a.value s e) (o.b.value x s e)) fun e => f (o.a.value s e) (o.b.value x s e) := by
  refine ⟨f, hg, fun s v opt o h => ?_⟩
  simp only [hc, ← ht]
  exact elementwiseTrap_rule h v o.t _ _ _ _

theorem mul_trap (opt : BitVec 2) (a b : Word) :
    (if opt.extractLsb' 1 1 = 1#1 ∧ mulOverflow a b then some Config.causeOvf else none) =
      if opt.getLsbD 1 ∧ (a.toInt * b.toInt < -(2 ^ 63) ∨ 2 ^ 63 ≤ a.toInt * b.toInt) then some Config.causeOvf
      else none := by
  simp only [getLsbD_extract_bit, mulOverflow_iff]

theorem divsu_trap (opt : BitVec 2) (b : Word) :
    (if b = 0#64 ∧ opt.extractLsb' 0 1 = 1#1 then some Config.causeDbz else none) =
      if opt.getLsbD 0 ∧ b = 0#64 then some Config.causeDbz else none := by
  simp only [getLsbD_extract_bit, and_comm]

/-- A divisor 0 is no -1, so the two traps exclude each other. -/
theorem div_trap (opt : BitVec 2) (a b : Word) :
    (if b = 0#64 then (if opt.extractLsb' 0 1 = 1#1 then some Config.causeDbz else none)
      else if opt.extractLsb' 1 1 = 1#1 ∧ divOverflow a b then some Config.causeOvf else none) =
      if opt.getLsbD 0 ∧ b = 0#64 then some Config.causeDbz
      else if opt.getLsbD 1 ∧ a.toInt = -(2 ^ 63) ∧ b.toInt = -1 then some Config.causeOvf else none := by
  simp only [getLsbD_extract_bit, divOverflow_iff]
  by_cases hb : b = 0#64
  · subst hb
    simp
  · simp [hb]

/-- Settles O36: the rule for an operation that may raise, with the causes and results of the three rows. -/
theorem trappingArithmetic : Obligations.TrappingArithmetic := by
  unfold Obligations.TrappingArithmetic trappingInteger
  simp only [List.forall_mem_cons, List.not_mem_nil, false_implies, implies_true, and_true]
  refine ⟨
    trap_row (f := fun a b => a * b) (fun a b w hw => ?_) mul_trap fun _ _ _ _ => rfl,
    trap_row (f := divWord) (fun a b w hw => ?_) div_trap fun _ _ _ _ => rfl,
    trap_row (f := divsuWord) (fun a b w hw => ?_) (fun opt _ b => divsu_trap opt b) fun _ _ _ _ => rfl⟩
  · exact (mul_exact a b).trans (Option.some.inj hw)
  · obtain ⟨hb, hw⟩ := Option.ite_none_left_eq_some.1 hw
    exact (if_neg hb).trans (Option.some.inj hw)
  · obtain ⟨hb, hw⟩ := Option.ite_none_left_eq_some.1 hw
    exact (if_neg hb).trans (Option.some.inj hw)

/-! ### Bit matrices and bytes -/

section
variable {c : Bool → R2 → Instr} {f : Word → Word → Word}

theorem matrix_row (row : Bool × Bool)
    (hf : ∀ a b i j, i < 8 → j < 8 → matBit (f a b) i j =
      let p := if row.2 then j else i
      let q := if row.2 then i else j
      let n := ((List.range 8).filter fun k => matBit a p k && matBit b k q).length
      if row.1 then n % 2 == 1 else n != 0)
    (hc : ∀ v o (s : State), exec (c v o) s = opR2 sext6 v o f s) :
    ∃ f : Word → Word → Word,
      (∀ a b i j, i < 8 → j < 8 →
        (f a b).getLsbD (63 - (8 * i + j)) =
          let p := if row.2 then j else i
          let q := if row.2 then i else j
          let n := ((List.range 8).filter fun k =>
            a.getLsbD (63 - (8 * p + k)) && b.getLsbD (63 - (8 * k + q))).length
          if row.1 then n % 2 == 1 else n != 0) ∧
      ∀ (s : State) (v : Bool) (o : R2), s.mods.brmod = none →
        ElementRule (exec (c v o) s) s v o.t (o.a.legal v && o.b.legal v) s.imodMask fun e =>
          f (o.a.value s e) (o.b.value (·.signExtend 64) s e) :=
  ⟨f, hf, fun _ _ o h => r2_row (fun _ _ => rfl) hc h o⟩

end

/-- Settles O37: an element of a product is the fold along its row and column; PERM picks bytes. -/
theorem bitMatricesAndBytes : Obligations.BitMatricesAndBytes := by
  unfold Obligations.BitMatricesAndBytes
  simp only [List.forall_mem_cons, List.not_mem_nil, false_implies, implies_true, and_true]
  refine ⟨⟨
    matrix_row (f := matMul or) (false, false) (fun a b i j hi hj => ?_) fun _ _ _ => rfl,
    matrix_row (f := matMul xor) (true, false) (fun a b i j hi hj => ?_) fun _ _ _ => rfl,
    matrix_row (f := fun a b => matMulTransposed or a b) (false, true) (fun a b i j hi hj => ?_) fun _ _ _ => rfl,
    matrix_row (f := fun a b => matMulTransposed xor a b) (true, true) (fun a b i j hi hj => ?_) fun _ _ _ => rfl⟩,
    permWord, extract_permWord, fun _ _ o h => r2_row (fun _ _ => rfl) (fun _ _ _ => rfl) h o,
    ri_row (fun _ _ => rfl) fun _ _ _ => rfl⟩
  · exact matBit_matMul_or a b i j hi hj
  · exact matBit_matMul_xor a b i j hi hj
  · exact (matBit_matMulTransposed or a b i j hi hj).trans (matBit_matMul_or a b j i hj hi)
  · exact (matBit_matMulTransposed xor a b i j hi hj).trans (matBit_matMul_xor a b j i hj hi)

/-! ### Field searches -/

theorem firstField_indexWord {w n : Nat} (hn : n < 2 ^ 64) (key : BitVec w) (a : Word) :
    FirstField w n key a (indexWord (fieldIndex n key a)) := by
  cases hx : fieldIndex n key a with
  | none => exact .inr ⟨rfl, fieldIndex_none hx⟩
  | some k =>
    obtain ⟨hk, hkey, hfirst⟩ := fieldIndex_some hx
    have hnat : (indexWord (some k)).toNat = k := Nat.mod_eq_of_lt (hk.trans hn)
    rw [FirstField, hnat]
    exact .inl ⟨hk, hkey, hfirst⟩

/-- Field `k` of active element `e` holds the key. -/
def FieldHit {w : Nat} (n : Nat) (key : Fin 64 → BitVec w) (r : BitVec 5) (s : State) (e : Fin 64) (k : Nat) : Prop :=
  e.val < s.vl.toNat ∧ s.imodMask.1.getLsbD e.val = true ∧ k < n ∧ ((s.readV r)[e]).extractLsb' (w * k) w = key e

/-- The search over a vector answers the least place of the key, counting `n` fields to an element. -/
theorem indexWord_searchVector {w : Nat} (n : Nat) (key : Fin 64 → BitVec w) (r : BitVec 5) (s : State) :
    (indexWord (searchVector n key r s) = BitVec.allOnes 64 ∧ ∀ e k, ¬FieldHit n key r s e k) ∨
      ∃ e k, FieldHit n key r s e k ∧ indexWord (searchVector n key r s) = BitVec.ofNat 64 (n * e.val + k) ∧
        ∀ d j, FieldHit n key r s d j → n * e.val + k ≤ n * d.val + j := by
  have miss {e : Fin 64} (h : fieldIndex n (key e) (s.readV r)[e] = none) (k : Nat) : ¬FieldHit n key r s e k :=
    fun ⟨_, _, hk, hkey⟩ => fieldIndex_none h k hk hkey
  have active {e : Fin 64} {k : Nat} (h : FieldHit n key r s e k) : s.active s.imodMask.1 e = true :=
    (active_iff ..).2 ⟨h.1, h.2.1⟩
  cases hx : searchVector n key r s with
  | none => exact .inl ⟨rfl, fun e k h => miss (searchVector_none hx e (active h)) k h⟩
  | some x =>
    obtain ⟨e, k, he, hk, rfl, hfirst⟩ := searchVector_some hx
    obtain ⟨hvl, hm⟩ := (active_iff ..).1 he
    obtain ⟨hkn, hkey, hleast⟩ := fieldIndex_some hk
    refine .inr ⟨e, k, ⟨hvl, hm, hkn, hkey⟩, rfl, fun d j h => ?_⟩
    rcases Nat.lt_trichotomy d.val e.val with hlt | heq | hgt
    · exact absurd h (miss (hfirst d hlt (active h)) j)
    · obtain rfl := Fin.ext heq
      obtain ⟨-, -, -, hj⟩ := h
      exact Nat.add_le_add_left (Nat.le_of_not_lt fun hjk => hleast j hjk hj) _
    · calc n * e.val + k ≤ n * (e.val + 1) := by rw [Nat.mul_succ]; omega
        _ ≤ n * d.val := Nat.mul_le_mul_left n hgt
        _ ≤ n * d.val + j := Nat.le_add_right ..

theorem opIndex_rule {w n : Nat} (hn : n < 2 ^ 64) {s : State} (h : s.mods.brmod = none) (v : Bool) (a t : RSpec)
    (keyLegal : Bool) (key : Fin 64 → BitVec w) :
    FieldSearch (opIndex n v a t keyLegal key s) s w n v a t keyLegal key := by
  have rule : ∃ f : Fin 64 → Word, (∀ e, FirstField w n (key e) (a.value s e) (f e)) ∧
      ElementRule (elementwise v t (a.legal v && keyLegal) s.imodMask
        (fun e => indexWord (fieldIndex n (key e) (a.value s e))) s) s v t (a.legal v && keyLegal) s.imodMask f :=
    ⟨_, fun e => firstField_indexWord hn (key e) _, elementwise_rule h v t _ _ _⟩
  match v, a, t with
  | true, .v ra, .x rt =>
    cases keyLegal with
    | false =>
      show Unimplemented (plain true s s.unimplemented) s
      rw [plain_next h (modsLegal_true s)]
      exact unimplemented_raised s
    | true =>
      refine ⟨indexWord (searchVector n key ra s), ?_, indexWord_searchVector n key ra s⟩
      show ScalarResult (plain true s (s.writeX rt _).finish) s _ _ _
      rw [plain_next h (modsLegal_true s)]
      exact scalarResult_finish s rt _
  | false, _, _ => exact rule
  | true, .x _, _ => exact rule
  | true, .v _, .v _ => exact rule

/-- Settles O38: the six searches are `opIndex` with their field width and key. -/
theorem fieldSearches : Obligations.FieldSearches := by
  intro s v o b i h
  have low {k n : Nat} (hk : k ≤ n) (x : BitVec n) : x.extractLsb' 0 k = x.setWidth k :=
    (BitVec.setWidth_eq_extractLsb' hk).symm
  simp only [low (show 8 ≤ 64 by decide), low (show 16 ≤ 64 by decide), low (show 21 ≤ 64 by decide),
    low (show 8 ≤ 12 by decide)]
  exact ⟨opIndex_rule (by decide) h .., opIndex_rule (by decide) h .., opIndex_rule (by decide) h ..,
    opIndex_rule (by decide) h .., opIndex_rule (by decide) h .., opIndex_rule (by decide) h ..⟩

/-! ### IMOD's C and D -/

theorem r3_row {c : Bool → R2 → Instr} {x y : BitVec 6 → Word} {f g : Word → Word → Word → Word}
    (hg : ∀ a b c, f a b c = g a b c) (hc : ∀ v o (s : State), exec (c v o) s = opR3 x y v o f s) {s : State}
    {v : Bool} (h : s.mods.brmod = none) (o : R2) :
    ElementRule (exec (c v o) s) s v o.t (o.a.legal v && o.b.legal v) s.imodMask fun e =>
      g (o.a.value s e) (o.b.value x s e) (optValue y s e s.specC) := by
  rw [hc]
  exact (opR3_rule h x y v o f).congr fun _ => hg _ _ _

theorem ptrdifWord_eq (a b c : Word) :
    ptrdifWord a b c = BitVec.ofInt 64 |(a - b).toInt| >>> (c.toNat % 32) := by
  rw [ptrdifWord, absWord_eq]

/-- Settles O39: the four rows of three sources, and SLLPI, whose number stands in the word. -/
theorem ternaryOperations : Obligations.TernaryOperations := by
  intro s v h
  refine ⟨?_, fun o => ?_⟩
  · unfold ternaryInteger
    simp only [List.forall_mem_cons, List.not_mem_nil, false_implies, implies_true, and_true]
    exact ⟨
      r3_row (f := fun a b c => (a &&& b) ||| (~~~a &&& c)) (fun _ _ _ => rfl) (fun _ _ _ => rfl) h,
      r3_row sllpWord_eq (fun _ _ _ => rfl) h,
      r3_row ptrdifWord_eq (fun _ _ _ => rfl) h,
      r3_row blendWord_eq (fun _ _ _ => rfl) h⟩
  · have rule := elementwise_rule h v o.t (o.a.legal v) s.imodMask
      fun e => sllpWord (o.a.value s e) (zext6 o.imm) (optValue sext6 s e s.specC)
    exact rule.congr fun e => by rw [sllpWord_eq, toNat_zext6]; rfl

/-- Settles O40: the four functions are the model's own, bit by bit. -/
theorem bitFields : Obligations.BitFields := by
  refine ⟨depWord, extWord, extuWord, fun a _ => ffoWord a, getLsbD_depWord, getLsbD_extuWord, getLsbD_extWord,
    fun a _ => ffoWord_cases a, fun s v o h => ⟨?_, ?_⟩⟩
  · simp only [List.forall_mem_cons, List.not_mem_nil, false_implies, implies_true, and_true]
    exact ⟨opR4_rule h sext6 zext6 zext6 v o depWord, opR4_rule h sext6 zext6 zext6 v o extWord,
      opR4_rule h sext6 zext6 zext6 v o extuWord⟩
  · exact elementwise_rule h v o.t (o.a.legal v) s.imodMask
      fun e => ffoWord (o.a.value s e) (optValue zext6 s e s.specC) (optValue zext6 s e s.specD)

end Sys2Proof.Machine
end

section
/-! SUPPORT. CHK, and which binary64 operation each float instruction applies. -/

namespace Sys2Proof.Machine

/-! ### Bounds -/

/-- Settles O41: both forms are `checkBounds` of `inBounds`. -/
theorem boundsChecks : Obligations.BoundsChecks := by
  unfold Obligations.BoundsChecks
  intro s v i o h
  simp only [List.forall_mem_cons, List.not_mem_nil, false_implies, implies_true, and_true]
  exact ⟨
    checkBounds_rule s h v (i.a.legal v) _ rfl _ _ fun e =>
      inBounds_iff i.cn (i.a.value s e) (optValue sext6 s e s.specC) (s.imm16 .signed i.imm),
    checkBounds_rule s h v (o.a.legal v && o.b.legal v) _ rfl _ _ fun e =>
      inBounds_iff o.cn (o.a.value s e) (o.b.value sext6 s e) (optValue sext6 s e s.specC)⟩

/-! ### Rounding modes -/

theorem rounding_eq (s : State) : s.rounding = roundingMode s .nearestEven := by
  unfold State.rounding roundingMode
  cases s.mods.imod with
  | none => rfl
  | some im => simp only [getLsbD_extract_bit]

theorem sqrtRounding_eq (s : State) (rm : BitVec 3) :
    s.sqrtRounding rm = roundingMode s (Config.default.rmDecode rm) := by
  unfold State.sqrtRounding roundingMode
  cases s.mods.imod with
  | none => rfl
  | some im => simp only [getLsbD_extract_bit]

/-! ### Sign bits -/

/-- Settles O42: the sign operations by Laws/Fp, the others by their rounding mode. -/
theorem floatOneSource : Obligations.FloatOneSource := by
  refine ⟨fun _ => rfl, fun s v o rm h => ⟨?_, ?_⟩⟩
  · unfold signOperations
    simp only [List.forall_mem_cons, List.not_mem_nil, false_implies, implies_true, and_true]
    exact ⟨
      r1_row (f := fun a => a) (fun _ => rfl) (fun _ _ _ => rfl) s v o h,
      r1_row signClear_eq (fun _ _ _ => rfl) s v o h,
      r1_row signSet_eq (fun _ _ _ => rfl) s v o h,
      r1_row signFlip_eq (fun _ _ _ => rfl) s v o h,
      r1_row signClear_eq (fun _ _ _ => rfl) s v o h,
      r1_row signSet_eq (fun _ _ _ => rfl) s v o h,
      r1_row signFlip_eq (fun _ _ _ => rfl) s v o h,
      r1_row absWord_eq (fun _ _ _ => rfl) s v o h,
      r1_row nabsWord_eq (fun _ _ _ => rfl) s v o h,
      r1_row (fun a => (ofInt_neg_toInt a).symm) (fun _ _ _ => rfl) s v o h,
      r1_row isnan_eq (fun _ _ _ => rfl) s v o h,
      r1_row finite_eq (fun _ _ _ => rfl) s v o h⟩
  · simp only [List.forall_mem_cons, List.not_mem_nil, false_implies, implies_true, and_true]
    exact ⟨
      (opR1_rule h v o (fpToInt s.rounding)).congr fun _ => congrArg (fpToInt · _) (rounding_eq s),
      (opR1_rule h v o (fpOfInt s.rounding)).congr fun _ => congrArg (fpOfInt · _) (rounding_eq s),
      opR1_rule h v o fpTrunc,
      opR1_rule h v o fun a => fpCompare a 0#64,
      (opR1_rule h v o (fpSqrt (s.sqrtRounding rm))).congr fun _ => congrArg (fpSqrt · _) (sqrtRounding_eq s rm)⟩

theorem ofBool_not (b : Bool) : Word.ofBool (!b) = if b = true then 0#64 else 1#64 := by
  cases b <;> rfl

/-- Settles O43: each instruction applies the shared operation of its format to the model's arithmetic. -/
theorem floatArithmetic : Obligations.FloatArithmetic := by
  intro s v o h
  simp only [List.forall_mem_cons, List.not_mem_nil, false_implies, implies_true, and_true, ← rounding_eq]
  have two (f : Word → Word → Word) := opR2_rule h float6 v o f
  have three (f : Word → Word → Word → Word) := opR3_rule h float6 float6 v o f
  refine ⟨⟨two _, two _, two _, two _, two fpMin, two fpMax, two _, two _, ?_, ?_, ?_, ?_, ?_⟩,
    ⟨three _, three _, three _, three _⟩, opR4_rule h float6 float6 float6 v o _⟩
  · exact (two fun a b => Word.ofBool (fpEq a b)).congr fun _ => rfl
  · exact (two fun a b => Word.ofBool (!fpEq a b)).congr fun _ => ofBool_not _
  · exact (two fun a b => Word.ofBool (fpLt a b)).congr fun _ => rfl
  · exact (two fun a b => Word.ofBool (fpLe a b)).congr fun _ => rfl
  · exact (two copySign).congr fun _ => rfl

end Sys2Proof.Machine
end

section
/-! SUPPORT. Binary64: the order of patterns, arithmetic rounded once, and the special cases (42 R341 to R380). -/

namespace Sys2Proof.Machine

/-! ### Order -/

theorem fpUnordered_iff (a b : Word) : fpUnordered a b = true ↔ fpNanPattern a ∨ fpNanPattern b := by
  rw [fpUnordered, Bool.or_eq_true, fpIsNan_iff, fpIsNan_iff]
  rfl

theorem fpUnordered_of_nan {a b : Word} (h : fpNanPattern a ∨ fpNanPattern b) : fpUnordered a b = true :=
  (fpUnordered_iff a b).2 h

theorem fpUnordered_of_ordered {a b : Word} (ha : ¬fpNanPattern a) (hb : ¬fpNanPattern b) :
    fpUnordered a b = false :=
  Bool.eq_false_iff.2 fun h => ((fpUnordered_iff a b).1 h).elim ha hb

theorem fpKey_lt_iff (a b : Word) : fpKey a < fpKey b ↔ fpUnits a < fpUnits b := by
  simp only [fpKey_eq, fpUnits_eq]
  exact (fp_order _ _ _ _).1.symm

theorem fpKey_eq_iff (a b : Word) : fpKey a = fpKey b ↔ fpUnits a = fpUnits b := by
  simp only [fpKey_eq, fpUnits_eq]
  exact (fp_order _ _ _ _).2.symm

theorem fpKey_le_iff (a b : Word) : fpKey a ≤ fpKey b ↔ fpUnits a ≤ fpUnits b := by
  rw [← not_lt, ← not_lt, fpKey_lt_iff]

section
variable {a b : Word}

theorem relations_of_unordered (h : fpUnordered a b = true) : fpEq a b = false ∧ fpLt a b = false ∧ fpLe a b = false := by
  simp only [fpEq, fpLt, fpLe, h, Bool.not_true, Bool.false_and, and_self]

theorem relations_of_ordered (h : fpUnordered a b = false) :
    fpEq a b = decide (fpUnits a = fpUnits b) ∧ fpLt a b = decide (fpUnits a < fpUnits b) ∧
      fpLe a b = decide (fpUnits a ≤ fpUnits b) := by
  simp only [fpEq, fpLt, fpLe, h, Bool.not_false, Bool.true_and, fpKey_eq_iff, fpKey_lt_iff, fpKey_le_iff, and_self]

end

/-- Settles O44: the order of the keys is the order of the numbers. -/
theorem floatComparison : Obligations.FloatComparison := by
  refine fun a b => ⟨fun h => ?_, fun ha hb => ?_⟩
  · have hu := fpUnordered_of_nan h
    obtain ⟨heq, hlt, hle⟩ := relations_of_unordered hu
    exact ⟨heq, hlt, hle, if_pos hu⟩
  · have hu := fpUnordered_of_ordered ha hb
    obtain ⟨heq, hlt, hle⟩ := relations_of_ordered hu
    refine ⟨heq, hlt, hle, ?_⟩
    rw [fpCompare, hu, heq, hlt, if_neg Bool.false_ne_true]
    simp only [decide_eq_true_eq]

/-! ### Finite values as real numbers -/

/-- The finite value `x` is the real number `r`, in units of 2^-1074. -/
def FpVal.Is (x : FpVal) (r : ℝ) : Prop :=
  ∃ s m e, x = .fin s m e ∧ r = (if s then -1 else 1) * ((m : ℝ) * 2 ^ (e + 1074))

theorem unpack_is {a : Word} (h : fpFinitePattern a) : (fpUnpack a).Is (fpUnits a) := by
  obtain ⟨m, e, hu, he, hk, -⟩ := fpUnpack_finite a h
  exact ⟨_, m, e, hu, fpUnits_real a m e he hk⟩

theorem FpVal.Is.neg {x : FpVal} {r : ℝ} (h : x.Is r) : x.neg.Is (-r) := by
  obtain ⟨s, m, e, rfl, rfl⟩ := h
  exact ⟨!s, m, e, rfl, (neg_sign s _).symm⟩

theorem product_is {a b : Word} (ha : fpFinitePattern a) (hb : fpFinitePattern b) :
    ((fpUnpack a).mul (fpUnpack b)).Is ((fpUnits a * fpUnits b : Int) / (fpOne : ℝ)) := by
  obtain ⟨m, e, hu, hk⟩ := fp_product a b ha hb
  refine ⟨_, m, e, hu, ?_⟩
  rw [hk, fpOne_real, mul_div_cancel_left₀ _ (by positivity)]

theorem addRound_is {x y : FpVal} {r q : ℝ} (hx : x.Is r) (hy : y.Is q) (k d : Int) (hd : d ≠ 0)
    (hk : (k : ℝ) = d * (r + q)) : RoundedTo (fpAddRound .nearestEven x y) k d := by
  obtain ⟨s, m, e, rfl, rfl⟩ := hx
  obtain ⟨t, n, f, rfl, rfl⟩ := hy
  exact (fpAddRound_rounded s t m n e f k d hd hk).1

theorem of_is {x : FpVal} {r : ℝ} (hx : x.Is r) (k d : Int) (hd : d ≠ 0) (hk : (k : ℝ) = d * r) :
    RoundedTo (fpOf .nearestEven x) k d := by
  obtain ⟨s, m, e, rfl, rfl⟩ := hx
  exact (fpRound_exact s m e k d hd hk).1

theorem fpOne_real_ne : (fpOne : ℝ) ≠ 0 := Int.cast_ne_zero.2 fpOne_ne

theorem fpOfInt_rounded (a : Word) : RoundedTo (fpOfInt .nearestEven a) (a.toInt * fpOne) 1 := by
  refine (fpRound_exact _ _ 0 _ 1 one_ne_zero ?_).1
  have habs : (a.toInt : ℝ) = (if decide (a.toInt < 0) then -1 else 1) * (a.toInt.natAbs : ℝ) := by
    by_cases h : a.toInt < 0
    · simp [h, Nat.cast_natAbs, abs_of_neg h]
    · simp [h, Nat.cast_natAbs, abs_of_nonneg (not_lt.1 h)]
  push_cast
  rw [fpOne_real, habs]
  simp

/-- Settles O45: each operation rounds its exact value once. -/
theorem floatRounding : Obligations.FloatRounding := by
  refine ⟨fun a b ha hb => ?_, fun a b c d ha hb hc hd => ?_, fpOfInt_rounded, fpSqrt_rounded⟩
  · refine ⟨addRound_is (unpack_is ha) (unpack_is hb) _ _ one_ne_zero ?_,
      addRound_is (unpack_is ha) (unpack_is hb).neg _ _ one_ne_zero ?_,
      of_is (product_is ha hb) _ _ fpOne_ne ?_, fun h0 => (fp_div_rounded a b ha hb h0).1⟩
    · push_cast; ring
    · push_cast; ring
    · rw [mul_div_cancel₀ _ fpOne_real_ne]
  · have hp := product_is ha hb
    refine ⟨addRound_is hp (unpack_is hc) _ _ fpOne_ne ?_, addRound_is hp (unpack_is hc).neg _ _ fpOne_ne ?_,
      addRound_is hp.neg (unpack_is hc) _ _ fpOne_ne ?_, addRound_is hp.neg (unpack_is hc).neg _ _ fpOne_ne ?_,
      addRound_is hp (product_is hc hd) _ _ fpOne_ne ?_⟩
    all_goals
      have := fpOne_real_ne
      push_cast
      field_simp
    all_goals ring

end Sys2Proof.Machine
end

section
/-! SUPPORT. Binary64 with NaN, infinite and zero operands, and the other special cases (42 R341 to R380). -/

namespace Sys2Proof.Machine

/-! ### FCMPB -/

theorem fpMag_lt_iff (a b : Word) : fpMag a < fpMag b ↔ |fpUnits a| < |fpUnits b| := by
  have habs (a : Word) : |fpUnits a| = fpMagUnits (fpMag a) := by
    rw [fpUnits_eq]
    split
    · rw [abs_neg, Nat.abs_cast]
    · rw [Nat.abs_cast]
  rw [habs, habs, Nat.cast_lt, fpMagUnits_lt_iff]

theorem fpMag_le_iff (a b : Word) : fpMag a ≤ fpMag b ↔ |fpUnits a| ≤ |fpUnits b| := by
  rw [← not_lt, ← not_lt, fpMag_lt_iff]

theorem compareBits_unordered {a b : Word} (h : fpNanPattern a ∨ fpNanPattern b) : fpCompareBits a b = 0x10#64 := by
  have hu := fpUnordered_of_nan h
  obtain ⟨heq, hlt, hle⟩ := relations_of_unordered hu
  simp only [fpCompareBits, hu, heq, hlt, hle, Bool.not_true, Bool.false_and, Bool.false_eq_true, if_false, if_true]
  rfl

theorem compareBits_ordered {a b : Word} (ha : ¬fpNanPattern a) (hb : ¬fpNanPattern b) {k : Nat} :
    (fpCompareBits a b).getLsbD k = true ↔ orderedBit a b k := by
  have hu := fpUnordered_of_ordered ha hb
  obtain ⟨heq, hlt, hle⟩ := relations_of_ordered hu
  simp only [fpCompareBits, hu, heq, hlt, hle, BitVec.getLsbD_or, getLsbD_flag _ _ k (show 0 < 64 by decide),
    getLsbD_flag _ _ k (show 1 < 64 by decide), getLsbD_flag _ _ k (show 2 < 64 by decide),
    getLsbD_flag _ _ k (show 3 < 64 by decide), getLsbD_flag _ _ k (show 4 < 64 by decide),
    getLsbD_flag _ _ k (show 8 < 64 by decide), getLsbD_flag _ _ k (show 9 < 64 by decide),
    getLsbD_flag _ _ k (show 10 < 64 by decide), getLsbD_flag _ _ k (show 11 < 64 by decide),
    getLsbD_flag _ _ k (show 12 < 64 by decide), getLsbD_flag _ _ k (show 63 < 64 by decide)]
  unfold orderedBit
  split <;> simp_all [fpMag_lt_iff, fpMag_le_iff]

/-! ### NaNs and infinities -/

theorem unpack_infinity (p : Bool) : fpUnpack (infinity p) = .inf p := by
  cases p <;> rfl

theorem unpack_fpNan : fpUnpack fpNan = .nan := rfl

/-- A value that is no finite number. -/
def FpVal.special : FpVal → Bool
  | .fin .. => false
  | _ => true

/-- Rounding leaves it as it is. -/
theorem unpack_of_special {x : FpVal} (h : x.special = true) (m : Config.Rounding) : fpUnpack (fpOf m x) = x := by
  cases x with
  | nan => exact unpack_fpNan
  | inf s => exact unpack_infinity s
  | fin s m e => exact (Bool.false_ne_true h).elim

/-- Of a finite summand nothing counts where the other one is special. -/
theorem addRound_special_fin {x : FpVal} (h : x.special = true) (m : Config.Rounding) (s t : Bool) (i j : Nat) (e f : Int) :
    fpAddRound m x (.fin s i e) = fpAddRound m x (.fin t j f) := by
  cases x with
  | nan => rfl
  | inf s => rfl
  | fin s m e => exact (Bool.false_ne_true h).elim

theorem addRound_comm {x : FpVal} (h : x.special = true) (m : Config.Rounding) (y : FpVal) :
    fpAddRound m y x = fpAddRound m x y := by
  cases x with
  | nan => cases y <;> rfl
  | inf s =>
    cases y with
    | nan => rfl
    | inf t => cases s <;> cases t <;> rfl
    | fin t m e => rfl
  | fin s m e => exact (Bool.false_ne_true h).elim

theorem addRound_nan {x y : FpVal} (m : Config.Rounding) (h : x = .nan ∨ y = .nan) : fpAddRound m x y = fpNan := by
  obtain rfl | rfl := h
  · rfl
  · cases x <;> rfl

theorem mul_nan {x y : FpVal} (h : x = .nan ∨ y = .nan) : x.mul y = .nan := by
  obtain rfl | rfl := h
  · rfl
  · cases x <;> rfl

theorem special_neg {x : FpVal} : x.neg.special = x.special := by
  cases x <;> rfl

theorem not_bne (s t : Bool) : ((!s) != t) = !(s != t) := by
  cases s <;> cases t <;> rfl

theorem neg_mul (x y : FpVal) : x.neg.mul y = (x.mul y).neg := by
  cases x with
  | nan => rfl
  | inf s =>
    cases y with
    | nan => rfl
    | inf t => exact congrArg FpVal.inf (not_bne s t)
    | fin t n f =>
      show (if n = 0 then FpVal.nan else .inf ((!s) != t)) = (if n = 0 then FpVal.nan else .inf (s != t)).neg
      split
      · rfl
      · exact congrArg FpVal.inf (not_bne s t)
  | fin s m e =>
    cases y with
    | nan => rfl
    | inf t =>
      show (if m = 0 then FpVal.nan else .inf (t != !s)) = (if m = 0 then FpVal.nan else .inf (t != s)).neg
      split
      · rfl
      · exact congrArg FpVal.inf (by cases s <;> cases t <;> rfl)
    | fin t n f => exact congrArg (FpVal.fin · _ _) (not_bne s t)

theorem unpack_signFlip (a : Word) : fpUnpack (a ^^^ 0x8000000000000000#64) = (fpUnpack a).neg := by
  have hsign : ((a ^^^ 0x8000000000000000#64).extractLsb' 63 1 == 1#1) = !(a.extractLsb' 63 1 == 1#1) := by
    rw [BitVec.extractLsb'_xor, show (0x8000000000000000#64).extractLsb' 63 1 = 1#1 from rfl]
    generalize a.extractLsb' 63 1 = b
    revert b
    decide
  have hexp : (a ^^^ 0x8000000000000000#64).extractLsb' 52 11 = a.extractLsb' 52 11 := by
    rw [BitVec.extractLsb'_xor, show (0x8000000000000000#64).extractLsb' 52 11 = 0#11 from rfl, BitVec.xor_zero]
  have hfrac : (a ^^^ 0x8000000000000000#64).extractLsb' 0 52 = a.extractLsb' 0 52 := by
    rw [BitVec.extractLsb'_xor, show (0x8000000000000000#64).extractLsb' 0 52 = 0#52 from rfl, BitVec.xor_zero]
  unfold fpUnpack
  rw [hsign, hexp, hfrac]
  dsimp only
  split
  · split <;> rfl
  · split <;> rfl

/-- The finite patterns are those with a finite value. -/
theorem unpack_fin {a : Word} (h : fpFinitePattern a) :
    ∃ m e, fpUnpack a = .fin (a.getLsbD 63) m e ∧ (fpUnits a = 0 ↔ m = 0) := by
  obtain ⟨m, e, hu, -, hk, -⟩ := fpUnpack_finite a h
  exact ⟨m, e, hu, fin_units a m e hk⟩

theorem unpack_special {a : Word} (h : ¬fpFinitePattern a) : (fpUnpack a).special = true := by
  by_cases hn : fpNanPattern a
  · rw [unpack_nan a hn]
    rfl
  · rw [(unpack_inf a hn h).1]
    rfl

theorem ite_special (c : Prop) [Decidable c] (s : Bool) : (if c then FpVal.nan else .inf s).special = true := by
  split <;> rfl

theorem mul_special {x y : FpVal} (h : x.special = true ∨ y.special = true) : (x.mul y).special = true := by
  cases x with
  | nan => rfl
  | inf s =>
    cases y with
    | nan => rfl
    | inf t => rfl
    | fin t n f => exact ite_special (n = 0) _
  | fin s m e =>
    cases y with
    | nan => rfl
    | inf t => exact ite_special (m = 0) _
    | fin t n f => exact (Bool.false_ne_true (h.elim id id)).elim

theorem product_special {a b : Word} (h : ¬(fpFinitePattern a ∧ fpFinitePattern b)) :
    ((fpUnpack a).mul (fpUnpack b)).special = true := by
  by_cases ha : fpFinitePattern a
  · exact mul_special (.inr (unpack_special fun hb => h ⟨ha, hb⟩))
  · exact mul_special (.inl (unpack_special ha))

theorem product_fin {a b : Word} (ha : fpFinitePattern a) (hb : fpFinitePattern b) :
    ∃ s m e, (fpUnpack a).mul (fpUnpack b) = .fin s m e := by
  obtain ⟨m, e, h, -⟩ := fp_product a b ha hb
  exact ⟨_, m, e, h⟩

/-! ### Infinite operands -/

section
variable (m : Config.Rounding)

theorem infinite_and_finite (p : Bool) {a : Word} (ha : fpFinitePattern a) :
    fpAdd m (infinity p) a = infinity p ∧ fpAdd m a (infinity p) = infinity p ∧
    fpSub m (infinity p) a = infinity p ∧ fpSub m a (infinity p) = infinity !p ∧
    fpMul m (infinity p) a = (if fpUnits a = 0 then fpNan else infinity (p != a.getLsbD 63)) ∧
    fpMul m a (infinity p) = (if fpUnits a = 0 then fpNan else infinity (p != a.getLsbD 63)) ∧
    fpDiv m (infinity p) a = infinity (p != a.getLsbD 63) ∧
    fpDiv m a (infinity p) = BitVec.ofBool (p != a.getLsbD 63) ++ 0#63 := by
  obtain ⟨n, e, hu, h0⟩ := unpack_fin ha
  have hmul (s : Bool) : fpOf m (if n = 0 then .nan else .inf s) = if fpUnits a = 0 then fpNan else infinity s := by
    simp only [h0]
    split <;> rfl
  simp only [fpAdd, fpSub, fpMul, fpDiv, unpack_infinity, hu]
  refine ⟨rfl, rfl, rfl, rfl, hmul _, hmul _, rfl, ?_⟩
  rw [bne_comm]
  rfl

theorem two_infinities (p q : Bool) :
    fpAdd m (infinity p) (infinity q) = (if p = q then infinity p else fpNan) ∧
    fpSub m (infinity p) (infinity q) = (if p = q then fpNan else infinity p) ∧
    fpMul m (infinity p) (infinity q) = infinity (p != q) ∧ fpDiv m (infinity p) (infinity q) = fpNan ∧
    fpSqrt m (infinity p) = if p then fpNan else infinity false := by
  simp only [fpAdd, fpSub, fpMul, fpDiv, fpSqrt, unpack_infinity]
  refine ⟨rfl, ?_, rfl, trivial, rfl⟩
  cases p <;> cases q <;> rfl

/-- A fused operation whose product is not finite is the sum of two roundings. -/
theorem fused_special {a b : Word} (c : Word) (h : ¬(fpFinitePattern a ∧ fpFinitePattern b)) :
    fpFma m a b c = fpAdd m (fpMul m a b) c ∧ fpFms m a b c = fpSub m (fpMul m a b) c ∧
    fpFnma m a b c = fpSub m c (fpMul m a b) ∧
    fpFnms m a b c = fpSub m (fpMul m (a ^^^ 0x8000000000000000#64) b) c := by
  have hs := product_special h
  have hx : fpUnpack (fpMul m a b) = (fpUnpack a).mul (fpUnpack b) := unpack_of_special hs m
  have hneg : fpUnpack (fpMul m (a ^^^ 0x8000000000000000#64) b) = ((fpUnpack a).mul (fpUnpack b)).neg := by
    rw [fpMul, unpack_signFlip, neg_mul]
    exact unpack_of_special (special_neg.trans hs) m
  simp only [fpFma, fpFms, fpFnma, fpFnms, fpAdd, fpSub, hx, hneg]
  exact ⟨trivial, trivial, (addRound_comm (special_neg.trans hs) m _).symm, trivial⟩

theorem dot_special {a b : Word} (c d : Word) (h : ¬(fpFinitePattern a ∧ fpFinitePattern b)) :
    (fpFinitePattern c → fpFinitePattern d → fpDot m a b c d = fpAdd m (fpMul m a b) 0#64 ∧
        fpDot m c d a b = fpAdd m (fpMul m a b) 0#64) ∧
      (¬(fpFinitePattern c ∧ fpFinitePattern d) → fpDot m a b c d = fpAdd m (fpMul m a b) (fpMul m c d)) := by
  have hs := product_special h
  have hx : fpUnpack (fpMul m a b) = (fpUnpack a).mul (fpUnpack b) := unpack_of_special hs m
  refine ⟨fun hc hd => ?_, fun hcd => ?_⟩
  · obtain ⟨t, n, f, hy⟩ := product_fin hc hd
    have h0 : fpUnpack 0#64 = .fin false 0 (-1074) := rfl
    simp only [fpDot, fpAdd, hx, hy, h0]
    exact ⟨addRound_special_fin hs .., (addRound_comm hs m _).trans (addRound_special_fin hs ..)⟩
  · have hy : fpUnpack (fpMul m c d) = (fpUnpack c).mul (fpUnpack d) := unpack_of_special (product_special hcd) m
    simp only [fpDot, fpAdd, hx, hy]

theorem fused_infinite_addend (p : Bool) {a b : Word} (ha : fpFinitePattern a) (hb : fpFinitePattern b) :
    fpFma m a b (infinity p) = infinity p ∧ fpFms m a b (infinity p) = infinity !p ∧
    fpFnma m a b (infinity p) = infinity p ∧ fpFnms m a b (infinity p) = infinity !p := by
  obtain ⟨s, n, e, hx⟩ := product_fin ha hb
  simp only [fpFma, fpFms, fpFnma, fpFnms, hx, unpack_infinity]
  exact ⟨rfl, rfl, rfl, rfl⟩

theorem infiniteOperands : InfiniteOperands m :=
  ⟨fun p _ ha => infinite_and_finite m p ha, two_infinities m, fun _ _ c h =>
    have ⟨h1, h2, h3, h4⟩ := fused_special m c h
    ⟨h1, h2, h3, h4, fun d => dot_special m c d h⟩, fun p _ _ ha hb => fused_infinite_addend m p ha hb⟩

end

/-! ### NaN operands -/

theorem arithmetic_nan {a b : Word} (h : fpNanPattern a ∨ fpNanPattern b) :
    ∀ f ∈ [fpAdd, fpSub, fpMul, fpDiv], f .nearestEven a b = fpNan := by
  have hu : fpUnpack a = .nan ∨ fpUnpack b = .nan := h.imp (unpack_nan a) (unpack_nan b)
  have hn : fpUnpack a = .nan ∨ (fpUnpack b).neg = .nan := hu.imp_right fun h => by rw [h]; rfl
  simp only [List.forall_mem_cons, List.not_mem_nil, false_implies, implies_true, and_true]
  refine ⟨addRound_nan _ hu, addRound_nan _ hn, ?_, ?_⟩
  · rw [fpMul, mul_nan hu]
    rfl
  · unfold fpDiv
    obtain ha | hb := hu
    · rw [ha]
    · rw [hb]
      cases fpUnpack a <;> rfl

theorem fused_nan {a b c : Word} (m : Config.Rounding) (h : fpNanPattern a ∨ fpNanPattern b ∨ fpNanPattern c) :
    ∀ f ∈ [fpFma, fpFms, fpFnma, fpFnms], f m a b c = fpNan := by
  have hneg {x : FpVal} (h : x = .nan) : x.neg = .nan := by rw [h]; rfl
  have hx : (fpUnpack a).mul (fpUnpack b) = .nan ∨ fpUnpack c = .nan := by
    obtain ha | hb | hc := h
    · exact .inl (mul_nan (.inl (unpack_nan a ha)))
    · exact .inl (mul_nan (.inr (unpack_nan b hb)))
    · exact .inr (unpack_nan c hc)
  simp only [List.forall_mem_cons, List.not_mem_nil, false_implies, implies_true, and_true]
  exact ⟨addRound_nan m hx, addRound_nan m (hx.imp_right hneg), addRound_nan m (hx.imp_left hneg),
    addRound_nan m (hx.imp hneg hneg)⟩

/-! ### Signs, zeros and constants -/

theorem float6_fields (k : BitVec 6) : (float6 k).getLsbD 63 = false ∧
    fpMag (float6 k) = ((k.extractLsb' 3 3).toNat + 1020) * 2 ^ 52 + (k.extractLsb' 0 3).toNat * 2 ^ 49 := by
  revert k
  decide

theorem float6_units (k : BitVec 6) : fpUnits (float6 k) * 8 =
    (8 + (k.extractLsb' 0 3).toNat : Int) * 2 ^ ((k.extractLsb' 3 3).toNat + 1071) := by
  obtain ⟨hsign, hmag⟩ := float6_fields k
  generalize k.extractLsb' 3 3 = E at *
  have hS := (k.extractLsb' 0 3).isLt
  generalize (k.extractLsb' 0 3).toNat = S at *
  have hexp : ((E.toNat + 1020) * 2 ^ 52 + S * 2 ^ 49) / 2 ^ 52 = E.toNat + 1020 := by omega
  have hfrac : ((E.toNat + 1020) * 2 ^ 52 + S * 2 ^ 49) % 2 ^ 52 = S * 2 ^ 49 := by omega
  have hunits : fpMagUnits ((E.toNat + 1020) * 2 ^ 52 + S * 2 ^ 49) = (2 ^ 52 + S * 2 ^ 49) * 2 ^ (E.toNat + 1019) := by
    rw [fpMagUnits, hexp, hfrac]
    rfl
  rw [fpUnits_eq, hsign, hmag, hunits, if_neg Bool.false_ne_true]
  push_cast
  rw [show E.toNat + 1071 = E.toNat + 1019 + 52 from rfl, pow_add _ (E.toNat + 1019) 52]
  ring

theorem mul_sign {a b : Word} (ha : fpFinitePattern a) (hb : fpFinitePattern b) :
    (fpMul .nearestEven a b).getLsbD 63 = (a.getLsbD 63 != b.getLsbD 63) := by
  obtain ⟨m, e, hu, hk⟩ := fp_product a b ha hb
  rw [fpMul, hu]
  exact (fpRound_exact _ m e (fpUnits a * fpUnits b) fpOne fpOne_ne (by rw [hk, fpOne_real])).2

theorem add_zero_sum {a b : Word} (ha : fpFinitePattern a) (hb : fpFinitePattern b) (h : fpUnits a + fpUnits b = 0) :
    fpAdd .nearestEven a b = BitVec.ofBool (a.getLsbD 63 && b.getLsbD 63) ++ 0#63 := by
  obtain ⟨m, e, hu, he, hk, -⟩ := fpUnpack_finite a ha
  obtain ⟨n, f, hv, hf, hl, -⟩ := fpUnpack_finite b hb
  rw [fpAdd, hu, hv]
  refine (fpAddRound_rounded _ _ m n e f _ 1 one_ne_zero ?_).2 h
  rw [← fpUnits_real a m e he hk, ← fpUnits_real b n f hf hl]
  push_cast
  ring

theorem div_zero {a b : Word} (ha : fpFinitePattern a) (hb : fpFinitePattern b) (h : fpUnits b = 0) :
    fpDiv .nearestEven a b = if fpUnits a = 0 then fpNan
      else BitVec.ofBool (a.getLsbD 63 != b.getLsbD 63) ++ 0x7ff0000000000000#63 := by
  obtain ⟨m, e, hu, hm⟩ := unpack_fin ha
  obtain ⟨n, f, hv, hn⟩ := unpack_fin hb
  have hdiv : fpDiv .nearestEven a b = if m = 0 then fpNan else fpInf (a.getLsbD 63 != b.getLsbD 63) := by
    rw [fpDiv, hu, hv]
    exact if_pos (hn.1 h)
  rw [hdiv]
  simp only [hm]
  rfl

theorem sqrt_nan {a : Word} (h : fpNanPattern a ∨ fpUnits a < 0) : fpSqrt .nearestEven a = fpNan := by
  by_cases hn : fpNanPattern a
  · rw [fpSqrt, unpack_nan a hn]
  · have hneg : fpUnits a < 0 := h.resolve_left hn
    have hsign : a.getLsbD 63 = true := by
      by_contra hs
      rw [fpUnits_eq, if_neg hs] at hneg
      exact absurd hneg (by omega)
    by_cases hf : fpFinitePattern a
    · obtain ⟨m, e, hu, h0⟩ := unpack_fin hf
      have hm : ¬m = 0 := fun hm => hneg.ne (h0.2 hm)
      rw [fpSqrt, hu, hsign]
      exact (if_neg hm).trans (if_pos rfl)
    · rw [fpSqrt, (unpack_inf a hn hf).1, hsign]
      rfl

theorem trunc_infinity (p : Bool) : fpTrunc (infinity p) = infinity p := by
  rw [fpTrunc, unpack_infinity]
  rfl

/-- Settles O46: the cases one by one. -/
theorem floatSpecialCases : Obligations.FloatSpecialCases :=
  ⟨fun _ _ => ⟨compareBits_unordered, fun ha hb _ _ => compareBits_ordered ha hb⟩, infiniteOperands, float6_units,
    fun _ _ => arithmetic_nan, fun m _ _ _ => fused_nan m, fun a h => by rw [fpTrunc, unpack_nan a h]; rfl,
    trunc_infinity, fun a b ha hb => ⟨mul_sign ha hb, add_zero_sum ha hb,
      fun h0 => (fp_div_rounded a b ha hb h0).2, div_zero ha hb⟩,
    fun _ => sqrt_nan, rfl, fun a h => by rw [fpToInt, unpack_nan a h], fpToInt_rounded, fpTrunc_units⟩

end Sys2Proof.Machine
end

section
/-! SUPPORT. The graphics instructions (43). -/

namespace Sys2Proof.Machine

theorem plain_unimplemented (v : Bool) (s : State) : plain v s s.unimplemented = .next s.unimplemented := ite_self _

/-- Where it is not allowed by the modifiers before it, an instruction ends as one that refuses its operands. -/
theorem unimplemented_plain {v : Bool} {s t : State} (h : t = s.unimplemented) : Unimplemented (plain v s t) s := by
  rw [h, plain_unimplemented]
  exact unimplemented_raised s

theorem unimplemented_illegal {v : Bool} {s t : State} (h : s.modsLegal v = false) : Unimplemented (plain v s t) s := by
  rw [show plain v s t = .next s.unimplemented from plainOut_unimplemented (.inr h) _]
  exact unimplemented_raised s

theorem extract_bit_eq_zero {w : Nat} (a : BitVec w) (k : Nat) : (a.extractLsb' k 1 = 0#1) = (a.getLsbD k = false) := by
  rw [eq_iff_iff, ← Bool.not_eq_true, ← getLsbD_extract_bit]
  generalize a.extractLsb' k 1 = b
  revert b
  decide

/-! ### CLIP and TRANSFORM -/

theorem ofBool_outside (p q : Prop) [Decidable p] [Decidable q] (c : Bool) :
    Word.ofBool (!(decide p && (!c || decide q))) = if p ∧ (c = true → q) then 0#64 else 1#64 := by
  cases c <;> by_cases hp : p <;> by_cases hq : q <;> simp [hp, hq, Word.ofBool]

theorem clipWord_eq (g : Config.Gfx) (p : Word) : clipWord g p = clipped g p :=
  ofBool_outside _ _ _

theorem transformWord_eq (cf : Vector Word 13) (p : Word) : transformWord cf p =
    (let k (n : Fin 13) : Int := ((cf[n]).extractLsb' 0 32).toInt
     let x : Int := (p.extractLsb' 0 32).toInt
     let y : Int := (p.extractLsb' 32 32).toInt
     if (cf[12]).getLsbD 0 then
       BitVec.ofInt 32 ((k 4 * x + k 5 * y) / 65536 + k 7) ++ BitVec.ofInt 32 ((k 0 * x + k 1 * y) / 65536 + k 3)
     else p) := by
  unfold transformWord
  simp only [extract_bit_eq_zero]
  cases (cf[12]).getLsbD 0 <;> rfl

/-! ### RW_COEFF -/

section
variable {s : State} (h : s.scalarReady) {b : OSpec} (hb : b.legal false = true) {ra : BitVec 5} (rt : BitVec 5)
include h hb

theorem exec_rwCoeff_below (hn : (s.readX ra).toNat < 13) : exec (.rwCoeff ⟨b, .x ra, .x rt⟩) s = .next
    ({ s with coeff := s.coeff.set (s.readX ra).toNat (Word.zextLow 32 (b.value sext6 s Config.default.first)) }.writeX
      rt s.coeff[(s.readX ra).toNat]).finish := by
  rw [exec_rwCoeff, execRwCoeff, plain_next h.1 h.2]
  exact congrArg _ ((if_pos hb).trans (dif_pos hn))

theorem exec_rwCoeff_above (hn : 13 ≤ (s.readX ra).toNat) :
    exec (.rwCoeff ⟨b, .x ra, .x rt⟩) s = .next (s.writeX rt 0#64).finish := by
  rw [exec_rwCoeff, execRwCoeff, plain_next h.1 h.2]
  exact congrArg _ ((if_pos hb).trans (dif_neg (not_lt.2 hn)))

end

theorem zextLow_append (a : Word) : Word.zextLow 32 a = 0#32 ++ a.extractLsb' 0 32 := by
  rw [Word.zextLow, zero_append, ← BitVec.setWidth_eq_extractLsb' (by decide)]

theorem rwCoeff_rule {s : State} (h : s.mods.brmod = none) (p : R2) :
    match p.a, p.t, if s.modsLegal false then scalarSource (·.signExtend 64) s p.b else none with
    | .x ra, .x rt, some n =>
      (∀ k : Fin 13, (s.readX ra).toNat = k.val →
        ScalarResult (exec (.rwCoeff p) s) { s with coeff := s.coeff.set k.val (0#32 ++ n.extractLsb' 0 32) }
          (s.ip + 9#64) rt s.coeff[k]) ∧
      (13 ≤ (s.readX ra).toNat → ScalarResult (exec (.rwCoeff p) s) s (s.ip + 9#64) rt 0#64)
    | _, _, _ => Unimplemented (exec (.rwCoeff p) s) s := by
  obtain ⟨b, a, t⟩ := p
  rcases hm : s.modsLegal false with _ | _
  · rw [if_neg Bool.false_ne_true]
    have hu : Unimplemented (exec (.rwCoeff ⟨b, a, t⟩) s) s := unimplemented_illegal hm
    cases a <;> cases t <;> exact hu
  rw [if_pos rfl]
  cases a with
  | v ra => exact unimplemented_plain rfl
  | x ra =>
    cases t with
    | v rt => exact unimplemented_plain rfl
    | x rt =>
      rw [scalarSource_eq _ s b Config.default.first]
      rcases hb : b.legal false with _ | _
      · exact unimplemented_plain (if_neg (by rw [hb]; exact Bool.false_ne_true))
      · refine ⟨fun k hk => ?_, fun hn => ?_⟩
        · have he := exec_rwCoeff_below ⟨h, hm⟩ hb rt (hk ▸ k.isLt)
          simp only [hk, zextLow_append] at he
          rw [he]
          exact scalarResult_finish _ rt _
        · rw [exec_rwCoeff_above ⟨h, hm⟩ hb rt hn]
          exact scalarResult_finish s rt _

/-! ### PLOT -/

section
variable {s : State} {v : Bool} {o : R2}

theorem exec_plot_legal (h : s.mods.brmod = none)
    (hl : (o.a.legal v && o.b.legal v && o.t.agrees v && s.modsLegal v) = true) :
    exec (.plot v o) s = .next { s with
      plotLog := s.plotLog ++
        ((if v then (List.finRange 64).filter fun e => decide (e.val < s.vl.toNat) && s.imodMask.1.getLsbD e.val
          else [0]).map fun e => (o.a.value s e, (o.b.value (·.signExtend 64) s e).extractLsb' 0 32))
      ip := s.ip + 9#64
      mods := Mods.none } := by
  obtain ⟨hl, hm⟩ := Bool.and_eq_true_iff.1 hl
  rw [exec_plot, execPlot, plain_next h hm, if_pos hl]
  cases v <;> rfl

theorem exec_plot_illegal (hl : (o.a.legal v && o.b.legal v && o.t.agrees v && s.modsLegal v) = false) :
    Unimplemented (exec (.plot v o) s) s := by
  obtain hl | hm := Bool.and_eq_false_iff.1 hl
  · exact unimplemented_plain (if_neg (by rw [hl]; exact Bool.false_ne_true))
  · exact unimplemented_illegal hm

end

/-- Settles O47: each instruction by the rule of its form. -/
theorem graphicsOperations : Obligations.GraphicsOperations :=
  ⟨clipWord_eq, fun s v o p h => ⟨opR1_rule h v o _,
    (opR1_rule h v o (transformWord s.coeff)).congr fun _ => transformWord_eq s.coeff _, rwCoeff_rule h p,
    exec_plot_legal h, exec_plot_illegal⟩⟩

end Sys2Proof.Machine
end

section
/-! SUPPORT. The conditional branches after BRMOD, and the jumps (45). -/

namespace Sys2Proof.Machine

/-- Every conditional branch is `branch` with the condition of its row. -/
theorem exec_branch : ∀ row ∈ branchTable ++ otherBranchTable, ∀ (o : Branch) (s : State),
    exec (row.1 o) s = branch row.2.2.1 o row.2.2.2 s := by
  simp only [branchTable, otherBranchTable, List.cons_append, List.nil_append, List.forall_mem_cons, List.not_mem_nil,
    false_implies, implies_true, and_true]
  exact ⟨fun _ _ => rfl, exec_bne_cond, fun _ _ => rfl, exec_bge_cond, fun _ _ => rfl, exec_bgeu_cond, fun _ _ => rfl,
    fun _ _ => rfl, fun _ _ => rfl⟩

/-- A branch after BRMOD: it links, taken or not, and its target is relative to Rc (45 R483). -/
theorem branch_modified {s : State} {m : BrmodOps} (hm : s.mods.brmod = some m) (hlegal : s.modsLegal false = true)
    (ext : BitVec 6 → Word) (o : Branch) (cond : Word → Word → Bool) :
    match scalarSource ext s o.b, m.c with
    | none, _ => Unimplemented (branch ext o cond s) s
    | some _, .v _ => Unimplemented (branch ext o cond s) s
    | some b, c =>
      ScalarResult (branch ext o cond s) s
        (if cond (s.readX o.ra) b then
          (if c = .x 31#5 then s.ip else c.value (·.signExtend 64) s 0) + (m.hi ++ m.lo ++ o.disp).signExtend 64
        else s.ip + 9#64)
        (m.rt.setWidth 5) (s.ip + 9#64) := by
  rw [scalarSource_eq ext s o.b Config.default.first]
  unfold branch
  rw [hlegal]
  cases hb : o.b.legal false with
  | false => exact unimplemented_raised s
  | true =>
    simp only [hm, branchBase, Bool.and_self, if_true]
    cases hc : m.c with
    | v r => exact unimplemented_raised s
    | imm c => exact scalarResult_jump ..
    | x r =>
      simp only [OSpec.x.injEq]
      exact scalarResult_jump ..

theorem exec_jalr_scalar {s : State} (h : s.scalarReady) (k : BitVec 16) (ra rt : BitVec 5) :
    exec (.jalr ⟨k, .x ra, .x rt⟩) s = .next ((s.writeX rt s.nextIp).jump
      ((if ra = 31#5 then s.ip else s.readX ra) + s.imm16 .signed k)) := by
  rw [exec_jalr, execJalr, plain_next h.1 h.2]

/-- Settles O49: the branches alone and after BRMOD, and the three jumps. -/
theorem jumpsAndModifiedBranches : Obligations.JumpsAndModifiedBranches := by
  refine ⟨fun row hrow s o h => ?_, fun row hrow s o m hm hlegal => ?_, fun s addr l o h => ⟨?_, ?_, ?_⟩⟩
  · rw [exec_branch row (List.mem_append_right _ hrow)]
    exact branch_alone h ..
  · rw [exec_branch row hrow]
    exact branch_modified hm hlegal ..
  · rw [exec_bal, execBal, plain_next h.1 h.2]
    exact scalarResult_jump ..
  · rw [exec_jal, execJal, plain_next h.1 h.2]
    exact scalarResult_jump ..
  · obtain ⟨k, a, t⟩ := o
    cases a with
    | v ra => exact unimplemented_plain rfl
    | x ra =>
      cases t with
      | v rt => exact unimplemented_plain rfl
      | x rt =>
        rw [exec_jalr_scalar h]
        exact scalarResult_jump ..

end Sys2Proof.Machine
end

section
/-! SUPPORT. The mask registers and VL (47 R600 to R619). -/

namespace Sys2Proof.Machine

theorem unimplemented_plainMask {s t : State} (h : t = s.unimplemented) : Unimplemented (plainMask s t) s := by
  rw [h, plainMask, ite_self]
  exact unimplemented_raised s

section
variable {s : State} (h : s.mods.brmod = none)
include h

theorem opMaskShift_result (o : MaskShift) (f : Mask → Nat → Mask) : match scalarSource (·.setWidth 64) s o.b with
    | some n => MaskResult (opMaskShift o f s) s (s.ip + 9#64) o.t (f (s.readM o.a) (n.toNat % 64))
    | none => Unimplemented (opMaskShift o f s) s := by
  rw [scalarSource_eq _ s o.b Config.default.first, opMaskShift]
  cases o.b.legal false with
  | false => exact unimplemented_plainMask rfl
  | true =>
    rw [plainMask_next h]
    exact maskResult_finish ..

theorem opToMask_result (r : BitVec 5) (t : BitVec 3) (f : Word → Mask) :
    MaskResult (opToMask ⟨.x r, t⟩ f s) s (s.ip + 9#64) t (f (s.readX r)) := by
  rw [opToMask, plainMask_next h]
  exact maskResult_finish ..

theorem maskTable_rows : ∀ row ∈ maskTable, ∀ o, MaskResult (exec (row.1 o) s) s (s.ip + 9#64) o.t
    (row.2 (s.readM o.a) (s.readM o.b)) := by
  simp only [maskTable, List.forall_mem_cons, List.not_mem_nil, false_implies, implies_true, and_true]
  have rule (f : Mask → Mask → Mask) (o : MaskRRR) := opMask_result h o f
  exact ⟨rule _, rule _, rule _, rule fun a b => ~~~(a &&& b), rule fun a b => ~~~(a ||| b),
    rule fun a b => ~~~(a ^^^ b), rule _, rule _⟩

theorem maskShift_rule (o : MaskShift) : match scalarSource (·.setWidth 64) s o.b with
    | some n =>
      MaskResult (exec (.msll o) s) s (s.ip + 9#64) o.t (s.readM o.a <<< (n.toNat % 64)) ∧
      MaskResult (exec (.msrl o) s) s (s.ip + 9#64) o.t (s.readM o.a >>> (n.toNat % 64))
    | none => Unimplemented (exec (.msll o) s) s ∧ Unimplemented (exec (.msrl o) s) s := by
  have left := opMaskShift_result h o fun m n => m <<< n
  have right := opMaskShift_result h o fun m n => m >>> n
  cases hb : scalarSource (·.setWidth 64) s o.b with
  | none =>
    simp only [hb] at left right
    exact ⟨left, right⟩
  | some n =>
    simp only [hb] at left right
    exact ⟨left, right⟩

theorem firstLast_rule (m : BitVec 3) (rt : BitVec 5) : ∃ lo hi : Nat,
    (if s.readM m = 0#64 then lo = 128 ∧ hi = 128
      else (s.readM m).getLsbD lo = true ∧ (∀ j < lo, (s.readM m).getLsbD j = false) ∧
        (s.readM m).getLsbD hi = true ∧ ∀ j, hi < j → (s.readM m).getLsbD j = false) ∧
    ScalarResult (exec (.mfirst ⟨m, 0#2, rt⟩) s) s (s.ip + 9#64) rt (BitVec.ofNat 64 lo) ∧
    ScalarResult (exec (.mlast ⟨m, 0#2, rt⟩) s) s (s.ip + 9#64) rt (BitVec.ofNat 64 hi) := by
  have first : ScalarResult (exec (.mfirst ⟨m, 0#2, rt⟩) s) s (s.ip + 9#64) rt (firstBit (s.readM m)) :=
    opFromMask_result h rt _
  have last : ScalarResult (exec (.mlast ⟨m, 0#2, rt⟩) s) s (s.ip + 9#64) rt (lastBit (s.readM m)) :=
    opFromMask_result h rt _
  by_cases h0 : s.readM m = 0#64
  · rw [h0] at first last
    exact ⟨128, 128, by rw [if_pos h0]; exact ⟨rfl, rfl⟩, first, last⟩
  · obtain ⟨lo, -, hlo, hset, hbelow⟩ := firstBit_eq h0
    obtain ⟨hi, -, hhi, hset', habove⟩ := lastBit_eq h0
    rw [hlo] at first
    rw [hhi] at last
    exact ⟨lo, hi, by rw [if_neg h0]; exact ⟨hset, hbelow, hset', habove⟩, first, last⟩

theorem exec_mtvl_scalar (r : BitVec 5) : exec (.mtvl (.x r)) s = .next { s with
    vl := BitVec.ofNat 64 (min (s.readX r).toNat 64), ip := s.ip + 9#64, mods := Mods.none } := by
  rw [exec_mtvl, execMtvl, plainMask_next h, ← clampVl_eq]
  rfl

end

/-- Settles O50: each instruction by the shared operation of its form. -/
theorem maskOperations : Obligations.MaskOperations := by
  intro s m t r rt tt h
  refine ⟨maskTable_rows h, maskShift_rule h, ?_, ⟨fillMask (s.readX r), getLsbD_fillMask _, ?_⟩, ?_, ?_,
    firstLast_rule h m rt, exec_mtvl_scalar h r, opFromMask_result h rt s.vl, ?_, fun htt => ?_⟩
  · have rule := opToMask_result h r t (·.setWidth 64)
    rw [BitVec.setWidth_eq] at rule
    exact rule
  · exact opToMask_result h r t fillMask
  · rw [← onesBelow_eq]
    exact opFromMask_result h rt _
  · have rule := opFromMask_result h rt ((s.readM m).setWidth 64)
    rw [BitVec.setWidth_eq] at rule
    exact rule
  · simp only [List.forall_mem_cons, List.not_mem_nil, false_implies, implies_true, and_true]
    exact ⟨unimplemented_plainMask rfl, unimplemented_plainMask rfl, unimplemented_plainMask rfl⟩
  · simp only [List.forall_mem_cons, List.not_mem_nil, false_implies, implies_true, and_true]
    have other (a : Word) := opFromMask_other h htt rt a
    exact ⟨other _, other _, other _, other _, other _⟩

end Sys2Proof.Machine
end

section
/-! SUPPORT. The vector instructions with a loop of their own (47 R625 to R634). -/

namespace Sys2Proof.Machine

/-- The elements that VCMPRSS and VCIDX pack: the model's list is the statement's. -/
theorem getElem_fillFrom_active (s : State) (m : Mask) (z : Bool) (old : VReg) (f : Fin 64 → Word) (e : Fin 64) :
    (s.fillFrom z old ((s.activeList m).map f))[e] = match (activeBelow s m)[e.val]? with
      | some k => f k
      | none => if e.val < s.vl.toNat ∧ z = true then 0#64 else old[e] := by
  have hlist : s.activeList m = activeBelow s m := rfl
  rw [getElem_fillFrom, hlist, List.getElem?_map]
  cases (activeBelow s m)[e.val]? <;> rfl

/-- With every element enabled, a merge changes the elements below VL. -/
theorem getElem_merge_allOnes (s : State) (old : VReg) (f : Fin 64 → Word) (e : Fin 64) :
    (s.merge (BitVec.allOnes 64) false 64 old f)[e] = if e.val < s.vl.toNat then f e else old[e] := by
  rw [merge_all, BitVec.getLsbD_allOnes, decide_eq_true e.isLt, if_pos rfl]

section
variable {s : State} (h : s.mods.brmod = none)
include h

theorem v2bits_rule (m : BitVec 3) (z : Bool) (ra rt : BitVec 5) :
    ∃ w : Word, (∀ k : Fin 64, w.getLsbD k.val =
        if k.val < s.vl.toNat then
          if (s.readM m).getLsbD k.val then ((s.readV ra)[k]).getLsbD 0
          else if z then false else (s.readX rt).getLsbD k.val
        else (s.readX rt).getLsbD k.val) ∧
      ScalarResult (exec (.v2bits ⟨m, z, .v ra, .x rt⟩) s) s (s.ip + 9#64) rt w := by
  rw [exec_v2bits, execV2bits, plain_next h (modsLegal_true s)]
  refine ⟨_, fun k => ?_, scalarResult_finish ..⟩
  rw [getLsbD_wordOfBits _ _ _ le_rfl, decide_eq_true k.isLt, Bool.true_and, toList_getD]
  simp

theorem bits2v_rule (m : BitVec 3) (z : Bool) (ra rt : BitVec 5) :
    VectorResult (exec (.bits2v ⟨m, z, .x ra, .v rt⟩) s) s (s.ip + 9#64) rt fun e =>
      if e.val < s.vl.toNat then
        if (s.readM m).getLsbD e.val then BitVec.ofNat 64 ((s.readX ra).getLsbD e.val).toNat
        else if z then 0#64 else (s.readV rt)[e]
      else (s.readV rt)[e] := by
  have hbit (b : Bool) : Word.ofBool b = BitVec.ofNat 64 b.toNat := by cases b <;> rfl
  rw [exec_bits2v, execBits2v, plain_next h (modsLegal_true s)]
  refine (vectorResult_finish ..).congr fun e => ?_
  simp only [← hbit]
  exact merge_all ..

theorem vcmprss_rule (m : BitVec 3) (z : Bool) (ra rt : BitVec 5) :
    VectorResult (exec (.vcmprss ⟨m, z, .v ra, .v rt⟩) s) s (s.ip + 9#64) rt fun e =>
      match (activeBelow s (s.readM m))[e.val]? with
      | some k => (s.readV ra)[k]
      | none => if e.val < s.vl.toNat ∧ z = true then 0#64 else (s.readV rt)[e] := by
  rw [exec_vcmprss, execVcmprss, plain_next h (modsLegal_true s)]
  exact (vectorResult_finish ..).congr fun e => getElem_fillFrom_active ..

theorem vcidx_rule (m : BitVec 3) (z : Bool) (a : RSpec) (rt : BitVec 5) :
    VectorResult (exec (.vcidx ⟨m, z, a, .v rt⟩) s) s (s.ip + 9#64) rt fun e =>
      match (activeBelow s (s.readM m))[e.val]? with
      | some k => a.value s k * BitVec.ofNat 64 k.val
      | none => if e.val < s.vl.toNat ∧ z = true then 0#64 else (s.readV rt)[e] := by
  rw [exec_vcidx, execVcidx, plain_next h (modsLegal_true s)]
  exact (vectorResult_finish ..).congr fun e => getElem_fillFrom_active ..

theorem vscan_rule (m : BitVec 3) (z : Bool) (a : RSpec) (rt : BitVec 5) :
    VectorResult (exec (.vscan ⟨m, z, a, .v rt⟩) s) s (s.ip + 9#64) rt fun e =>
      if e.val < s.vl.toNat then
        (((activeBelow s (s.readM m)).filter fun k => decide (k.val < e.val)).map (a.value s)).sum
      else (s.readV rt)[e] := by
  rw [exec_vscan, execVscan, plain_next h (modsLegal_true s)]
  refine (vectorResult_finish ..).congr fun e => ?_
  simp only [foldl_sum]
  exact getElem_merge_allOnes ..

end

/-- Settles O51: the accepted type codes by the rules above. -/
theorem vectorSelections : Obligations.VectorSelections := by
  rintro s ⟨m, z, a, t⟩ h
  cases a with
  | x ra =>
    cases t with
    | x rt => exact ⟨unimplemented_plain rfl, unimplemented_plain rfl, unimplemented_plain rfl, unimplemented_plain rfl,
        unimplemented_plain rfl⟩
    | v rt => exact ⟨unimplemented_plain rfl, bits2v_rule h .., unimplemented_plain rfl, vcidx_rule h .., vscan_rule h ..⟩
  | v ra =>
    cases t with
    | x rt => exact ⟨v2bits_rule h .., unimplemented_plain rfl, unimplemented_plain rfl, unimplemented_plain rfl,
        unimplemented_plain rfl⟩
    | v rt => exact ⟨unimplemented_plain rfl, unimplemented_plain rfl, vcmprss_rule h .., vcidx_rule h .., vscan_rule h ..⟩

/-! ### Slides and single elements -/

section
variable {s : State} (h : s.mods.brmod = none)
include h

/-- A slide takes each element below VL from where `src` says, or from nowhere. -/
theorem slide_result {b : OSpec} (hb : b.legal false = true) (ra rt : BitVec 5) (src : Nat → Nat → Nat → Option Nat) :
    VectorResult (slide ⟨b, .v ra, .v rt⟩ src s) s (s.ip + 9#64) rt fun e =>
      if e.val < s.vl.toNat then
        match src s.vl.toNat (b.value zext6 s 0).toNat e.val with
        | some k => (s.readV ra)[k]?.getD 0#64
        | none => 0#64
      else (s.readV rt)[e] := by
  have moved (n : Nat) : VectorResult (.next (s.writeV rt (s.merge (BitVec.allOnes 64) false 64 (s.readV rt) fun e =>
      match src s.vl.toNat n e.val with
      | some k => (s.readV ra).toList.getD k 0#64
      | none => 0#64)).finish) s (s.ip + 9#64) rt fun e =>
      if e.val < s.vl.toNat then
        match src s.vl.toNat n e.val with
        | some k => (s.readV ra)[k]?.getD 0#64
        | none => 0#64
      else (s.readV rt)[e] := by
    refine (vectorResult_finish ..).congr fun e => ?_
    simp only [toList_getD]
    exact getElem_merge_allOnes ..
  rw [slide, plain_next h (modsLegal_true s)]
  cases b with
  | v rb => exact (Bool.false_ne_true hb).elim
  | x rb => exact moved _
  | imm c => exact moved _

theorem vsllv_rule {b : OSpec} (hb : b.legal false = true) (ra rt : BitVec 5) :
    VectorResult (exec (.vsllv ⟨b, .v ra, .v rt⟩) s) s (s.ip + 9#64) rt fun e =>
      if e.val < s.vl.toNat then
        if (b.value zext6 s 0).toNat ≤ e.val then (s.readV ra)[e.val - (b.value zext6 s 0).toNat]?.getD 0#64 else 0#64
      else (s.readV rt)[e] := by
  refine (slide_result h hb ra rt fun _ amt x => if amt ≤ x then some (x - amt) else none).congr fun e => ?_
  by_cases hle : (b.value zext6 s 0).toNat ≤ e.val
  · simp only [if_pos hle]
  · simp only [if_neg hle]

theorem vsrlv_rule {b : OSpec} (hb : b.legal false = true) (ra rt : BitVec 5) :
    VectorResult (exec (.vsrlv ⟨b, .v ra, .v rt⟩) s) s (s.ip + 9#64) rt fun e =>
      if e.val < s.vl.toNat then
        if e.val + (b.value zext6 s 0).toNat < s.vl.toNat then
          (s.readV ra)[e.val + (b.value zext6 s 0).toNat]?.getD 0#64
        else 0#64
      else (s.readV rt)[e] := by
  refine (slide_result h hb ra rt fun vl amt x => if x + amt < vl then some (x + amt) else none).congr fun e => ?_
  by_cases hlt : e.val + (b.value zext6 s 0).toNat < s.vl.toNat
  · simp only [if_pos hlt]
  · simp only [if_neg hlt]

theorem vex_rule (rb ra rt : BitVec 5) : ScalarResult (exec (.vex ⟨.v rb, .x ra, .x rt⟩) s) s (s.ip + 9#64) rt
    ((s.readV rb)[(s.readX ra).toNat % 64]?.getD 0#64) := by
  have hlt : (s.readX ra).toNat % 64 < 64 := Nat.mod_lt _ (by decide)
  rw [exec_vex, execVex, plain_next h (modsLegal_true s), Vector.getElem?_eq_getElem hlt]
  exact scalarResult_finish ..

theorem veins_rule {b : OSpec} (hb : b.legal false = true) (ra rt : BitVec 5) :
    VectorResult (exec (.veins ⟨b, .x ra, .v rt⟩) s) s (s.ip + 9#64) rt fun e =>
      if e.val = (s.readX ra).toNat % 64 then b.value sext6 s 0 else (s.readV rt)[e] := by
  rw [exec_veins, execVeins, plain_next h (modsLegal_true s)]
  dsimp only
  rw [if_pos hb]
  refine (vectorResult_finish ..).congr fun e => ?_
  rw [Fin.getElem_fin, Vector.getElem_set]
  exact if_congr eq_comm rfl rfl

end

/-- Settles O52: the accepted type codes by the rules above; a scalar source is a scalar register or a constant. -/
theorem vectorSlidesAndElements : Obligations.VectorSlidesAndElements := by
  rintro s ⟨b, a, t⟩ h
  refine ⟨?slides, ?vex, ?veins⟩
  case slides =>
    cases a with
    | x ra => exact ⟨unimplemented_plain rfl, unimplemented_plain rfl⟩
    | v ra =>
      cases t with
      | x rt => exact ⟨unimplemented_plain rfl, unimplemented_plain rfl⟩
      | v rt =>
        cases b with
        | v rb => exact ⟨unimplemented_plain rfl, unimplemented_plain rfl⟩
        | x rb => exact ⟨vsllv_rule h rfl ra rt, vsrlv_rule h rfl ra rt⟩
        | imm c => exact ⟨vsllv_rule h rfl ra rt, vsrlv_rule h rfl ra rt⟩
  case vex =>
    cases b with
    | x rb => exact unimplemented_plain rfl
    | imm c => exact unimplemented_plain rfl
    | v rb =>
      cases a with
      | v ra => exact unimplemented_plain rfl
      | x ra =>
        cases t with
        | v rt => exact unimplemented_plain rfl
        | x rt => exact vex_rule h rb ra rt
  case veins =>
    cases a with
    | v ra => exact unimplemented_plain rfl
    | x ra =>
      cases t with
      | x rt => exact unimplemented_plain rfl
      | v rt =>
        cases b with
        | v rb => exact unimplemented_plain rfl
        | x rb => exact veins_rule h rfl ra rt
        | imm c => exact veins_rule h rfl ra rt

end Sys2Proof.Machine
end

section
/-! SUPPORT. The scalar loads and stores, LDM and STM, and CACHE (44 R410 to R440). -/

namespace Sys2Proof.Machine

theorem unimplemented_plainOut {v : Bool} {s : State} {r : Out} (h : r = .next s.unimplemented) :
    Unimplemented (plainOut v s r) s := by
  rw [h, show plainOut v s (.next s.unimplemented) = .next s.unimplemented from plain_unimplemented v s]
  exact unimplemented_raised s

/-! ### Loads -/

/-- Settles O53: each load is `loadDisp` or `loadIndexed` of its size and sign. -/
theorem scalarLoads : Obligations.ScalarLoads := by
  intro s h
  refine ⟨?_, ?_⟩
  · simp only [loadTable, List.forall_mem_cons, List.not_mem_nil, false_implies, implies_true, and_true]
    exact ⟨loadDisp_result h true 1, loadDisp_result h false 1, loadDisp_result h true 2, loadDisp_result h false 2,
      loadDisp_result h true 4, loadDisp_result h false 4, loadDisp_result h true 8, loadDisp_result h false 8,
      loadDisp_result h true 8, loadDisp_result h false 8⟩
  · simp only [loadIndexedTable, List.forall_mem_cons, List.not_mem_nil, false_implies, implies_true, and_true]
    exact ⟨loadIndexed_result h true 1, loadIndexed_result h false 1, loadIndexed_result h true 2,
      loadIndexed_result h false 2, loadIndexed_result h true 4, loadIndexed_result h false 4,
      loadIndexed_result h true 8, loadIndexed_result h false 8, loadIndexed_result h true 8,
      loadIndexed_result h false 8⟩

/-! ### Stores -/

section
variable {s : State} (h : s.scalarReady) (put : Put)

include h in
theorem storeDisp_next {o : StD} {ra : BitVec 5} {b : Word} (ha : o.a = .x ra)
    (hb : scalarSource (·.setWidth 64) s o.b = some b) :
    storeDisp put o s = .next (put.run (s.readX ra + s.displacement o.disp) b s).finish := by
  have rule := storeDisp_result h put o (P := fun r ea b => r = .next (put.run ea b s).finish) fun _ _ => rfl
  rw [ha, hb] at rule
  exact rule

theorem scalarSource_none {ext : BitVec 6 → Word} {o : OSpec} (hb : ∀ b, scalarSource ext s o ≠ some b) :
    o.legal false = false := by
  rw [scalarSource_eq ext s o 0] at hb
  cases hl : o.legal false with
  | false => rfl
  | true => exact absurd (if_pos hl) (hb _)

theorem storeDisp_other {o : StD}
    (hno : ∀ ra b, o.a = .x ra → scalarSource (·.setWidth 64) s o.b = some b → False) :
    Unimplemented (storeDisp put o s) s := by
  obtain ⟨d, b, a⟩ := o
  cases a with
  | v ra => exact unimplemented_plainOut rfl
  | x ra =>
    have hb : b.legal false = false := scalarSource_none fun w hw => hno ra w rfl hw
    exact unimplemented_plainOut (if_neg (by rw [hb]; exact Bool.false_ne_true))

/-- The index of a store, where no modifier has a vector register. -/
theorem storeIndex_eq (hm : s.modsLegal false = true) : storeIndex s = some (optValue sext6 s 0 s.specC) := by
  rw [State.modsLegal, Bool.and_eq_true, Bool.and_eq_true] at hm
  obtain ⟨⟨hc, -⟩, -⟩ := hm
  unfold storeIndex
  rw [State.specC] at *
  cases hi : s.mods.imod with
  | none => rfl
  | some im =>
    rw [hi] at hc
    exact (scalarSource_eq _ s im.c 0).trans (if_pos hc)

include h in
theorem storeIndexed_next {o : StX} {ra : BitVec 5} {b k : Word} (ha : o.a = .x ra)
    (hb : scalarSource (·.setWidth 64) s o.b = some b) (hk : storeIndex s = some k) :
    storeIndexed put o s = .next (put.run (s.readX ra + k * BitVec.ofNat 64 (2 ^ o.sc.toNat)) b s).finish := by
  rw [storeIndex_eq h.2, Option.some.injEq] at hk
  rw [scalarSource_eq _ s o.b 0, Option.ite_none_right_eq_some, Option.some.injEq] at hb
  obtain ⟨hlegal, hb⟩ := hb
  unfold storeIndexed
  simp only [plainOut_next h.1 h.2, accessing_eq, ha, hlegal, if_true]
  rw [← eaIndex_eq, ← hk, ← hb]
  rfl

include h in
theorem storeIndexed_other {o : StX}
    (hno : ∀ ra b k, o.a = .x ra → scalarSource (·.setWidth 64) s o.b = some b → storeIndex s = some k → False) :
    Unimplemented (storeIndexed put o s) s := by
  obtain ⟨sc, b, a⟩ := o
  cases a with
  | v ra => exact unimplemented_plainOut rfl
  | x ra =>
    have hb : b.legal false = false := scalarSource_none fun w hw => hno ra w _ rfl hw (storeIndex_eq h.2)
    exact unimplemented_plainOut (if_neg (by rw [hb]; exact Bool.false_ne_true))

end

theorem putBytes_result {s : State} (hm : Memory.wf s.mem = true) {n : Nat} (hn : n ≤ 8) (ea b : Word) :
    StoreResult (.next ((putBytes n).run ea b s).finish) s (s.ip + 9#64) ea n b :=
  storeResult_jump ea b _ hn hm

theorem putPointer_result {s : State} (hm : Memory.wf s.mem = true) (ea b : Word) :
    PointerResult (.next (putPointer.run ea b s).finish) s ea b := by
  have stored := stored_memWrite (n := 8) ea b le_rfl hm
  have cards := byteAt_cardBytes (memWrite s.mem ea 8 b) ea 8 (memWrite_wf _ _ _ _ hm)
  rw [putPointer_eq]
  exact ⟨_, rfl, rfl, fun a ha => (cards a).1 ha, fun j hj ha => ((cards _).2 ha).trans (stored.1 j hj),
    fun a ha hne => ((cards a).2 ha).trans (stored.2 a hne)⟩

/-- Settles O54: each store is `storeDisp` or `storeIndexed` of what it puts. -/
theorem scalarStores : Obligations.ScalarStores := by
  intro s o x h hm
  refine ⟨?_, ?_⟩
  · split
    next ra b ha hb =>
      simp only [storeTable, List.forall_mem_cons, List.not_mem_nil, false_implies, implies_true, and_true]
      have bytes {n : Nat} (hn : n ≤ 8) : StoreResult (storeDisp (putBytes n) o s) s (s.ip + 9#64)
          (s.readX ra + s.displacement o.disp) n b := by
        rw [storeDisp_next h _ ha hb]
        exact putBytes_result hm hn _ b
      refine ⟨⟨bytes (by decide), bytes (by decide), bytes (by decide), bytes (by decide)⟩, ?_⟩
      rw [exec_stptr, execStptr, storeDisp_next h _ ha hb]
      exact putPointer_result hm _ b
    next hno =>
      simp only [storeTable, List.forall_mem_cons, List.not_mem_nil, false_implies, implies_true, and_true]
      have other (put : Put) := storeDisp_other put hno
      exact ⟨⟨other _, other _, other _, other _⟩, other _⟩
  · split
    next ra b k ha hb hk =>
      simp only [storeTable, List.forall_mem_cons, List.not_mem_nil, false_implies, implies_true, and_true]
      have bytes {n : Nat} (hn : n ≤ 8) : StoreResult (storeIndexed (putBytes n) x s) s (s.ip + 9#64)
          (s.readX ra + k * BitVec.ofNat 64 (2 ^ x.sc.toNat)) n b := by
        rw [storeIndexed_next h _ ha hb hk]
        exact putBytes_result hm hn _ b
      refine ⟨⟨bytes (by decide), bytes (by decide), bytes (by decide), bytes (by decide)⟩, ?_⟩
      rw [exec_stptrIndexed, execStptrIndexed, storeIndexed_next h _ ha hb hk]
      exact putPointer_result hm _ b
    next hno =>
      simp only [storeTable, List.forall_mem_cons, List.not_mem_nil, false_implies, implies_true, and_true]
      have other (put : Put) := storeIndexed_other h put hno
      exact ⟨⟨other _, other _, other _, other _⟩, other _⟩

/-! ### Register lists -/

theorem mem_listed_iff (s : State) (q : BitVec 5) : q ∈ s.listed ↔ inList (regList s) q = true := by
  rw [mem_listed, inList, Bool.and_eq_true, bne_iff_ne]
  rfl

theorem listed_getElem {s : State} {q : BitVec 5} (h : q ∈ s.listed) :
    ∃ hi : listIndex (regList s) q.toNat < s.listed.length, s.listed[listIndex (regList s) q.toNat] = q :=
  List.getElem?_eq_some_iff.1 (listed_index s q h)

theorem loadMany_result (s : State) (ea : Word) : LoadedList (.next (loadMany ea s).finish) s ea := by
  have h0 : 0#5 ∉ s.listed := fun h => ((mem_listed s _).1 h).1 rfl
  obtain ⟨hin, hout, hx⟩ := foldl_writeX (fun k => memRead s.mem (ea + BitVec.ofNat 64 (8 * k)) 8) s.listed 0 s
    (listed_nodup s) h0
  refine ⟨_, rfl, congrArg State.finish hx, fun q => ?_⟩
  by_cases hq : q ∈ s.listed
  · obtain ⟨hi, hget⟩ := listed_getElem hq
    have := hin _ hi
    rw [hget, Nat.zero_add] at this
    rw [if_pos ((mem_listed_iff s q).1 hq)]
    exact this
  · rw [if_neg fun h => hq ((mem_listed_iff s q).2 h)]
    exact hout q hq

theorem storeMany_result {s : State} (hm : Memory.wf s.mem = true) (ea : Word) :
    StoredList (.next (storeMany ea s).finish) s ea := by
  have hle := listed_length_le s
  obtain ⟨hin, hout⟩ := foldl_octas ea s.readX s.listed 0 s.mem hm (by omega)
  have hmany : storeMany ea s = { s with mem := _ } :=
    foldl_store 8 (fun p : BitVec 5 × Nat => ea + BitVec.ofNat 64 (8 * p.2)) (fun p => s.readX p.1) s.listed.zipIdx s
  rw [hmany]
  refine ⟨_, rfl, rfl, fun q j hq hj => ?_, fun a ha => hout a fun j _ hj => ha j ?_⟩
  · obtain ⟨hi, hget⟩ := listed_getElem ((mem_listed_iff s q).2 hq)
    have := hin _ hi j hj
    rw [hget, Nat.zero_add] at this
    exact this
  · rw [Nat.zero_add, listed_length] at hj
    exact hj

section
variable {s : State} (h : s.scalarReady)
include h

theorem ldm_rule (d : LdD) : match d.a with
    | .x ra => LoadedList (exec (.ldmAt60h d) s) s (s.readX ra + s.displacement d.disp)
    | .v _ => Unimplemented (exec (.ldmAt60h d) s) s := by
  rw [exec_ldmAt60h, execLdmAt60h, plainOut_next h.1 h.2]
  simp only [accessing_eq]
  cases d.a with
  | v ra => exact unimplemented_raised s
  | x ra => exact loadMany_result s _

theorem ldmIndexed_rule (x : LdX) : match x.a, scalarSource (·.signExtend 64) s x.b with
    | .x ra, some n =>
      LoadedList (exec (.ldmAt61h x) s) s (s.readX ra + n * BitVec.ofNat 64 (2 ^ x.sc.toNat))
    | _, _ => Unimplemented (exec (.ldmAt61h x) s) s := by
  rw [exec_ldmAt61h, execLdmAt61h, plainOut_next h.1 h.2, scalarSource_eq _ s x.b 0]
  simp only [accessing_eq]
  cases x.a with
  | v ra => exact unimplemented_raised s
  | x ra =>
    cases x.b.legal false with
    | false => exact unimplemented_raised s
    | true =>
      simp only [if_true]
      rw [← eaIndex_eq]
      exact loadMany_result s _

theorem stm_rule (hm : Memory.wf s.mem = true) (e : StD) : match e.a with
    | .x ra => StoredList (exec (.stm e) s) s (s.readX ra + s.displacement e.disp)
    | .v _ => Unimplemented (exec (.stm e) s) s := by
  rw [exec_stm, execStm, plainOut_next h.1 h.2]
  simp only [accessing_eq]
  cases e.a with
  | v ra => exact unimplemented_raised s
  | x ra => exact storeMany_result hm _

theorem stmIndexed_rule (hm : Memory.wf s.mem = true) (y : StX) : match y.a, storeIndex s with
    | .x ra, some n => StoredList (exec (.stmIndexed y) s) s (s.readX ra + n * BitVec.ofNat 64 (2 ^ y.sc.toNat))
    | _, _ => Unimplemented (exec (.stmIndexed y) s) s := by
  rw [exec_stmIndexed, execStmIndexed, plainOut_next h.1 h.2, storeIndex_eq h.2]
  simp only [accessing_eq]
  cases y.a with
  | v ra => exact unimplemented_raised s
  | x ra =>
    dsimp only
    rw [← eaIndex_eq]
    exact storeMany_result hm _

end

/-- Settles O55: the lists are folds over the octas. -/
theorem multipleTransfers : Obligations.MultipleTransfers := fun _ d x e y h hm =>
  ⟨ldm_rule h d, ldmIndexed_rule h x, stm_rule h hm e, stmIndexed_rule h hm y⟩

/-! ### CACHE -/

/-- Settles O56: the commands by `cacheInstr_eq` and `cacheData_eq`. -/
theorem cacheCommands : Obligations.CacheCommands := by
  intro s d ra dc ic h _ hi
  refine ⟨fun hbad => unimplemented_plain (if_pos hbad), fun hic hdc => ?_, unimplemented_plain rfl⟩
  refine ⟨refreshed ic (s.readX ra + s.displacement d) s, byteAt_refreshed ic _ s hi, ?_⟩
  have hok : ¬(ic = 3#2 ∨ 5 ≤ dc.toNat) := fun hbad => hbad.elim hic fun hge => Nat.not_le.2 hdc hge
  rw [exec_cache, execCache, plain_next h.1 h.2]
  dsimp only
  rw [if_neg hok, cacheInstr_eq, cacheData_eq]
  rfl

end Sys2Proof.Machine
end

section
/-! SUPPORT. The stack (44 R447 to R452). -/

namespace Sys2Proof.Machine

section
variable {s : State} (h : s.scalarReady) {b : OSpec} (hb : b.legal false = true) (hm : Memory.wf s.mem = true)
  (rb ra sp : BitVec 5)

include h hb hm in
theorem push_rule : ∃ m, Stored s.mem m (if sp = 0#5 then 0#64 else s.readX sp - 8#64) 8 (s.readX ra) ∧
    ScalarResult (exec (.push ⟨b, .x ra, .x sp⟩) s) { s with mem := m } (s.ip + 9#64) sp (s.readX sp - 8#64) := by
  refine ⟨_, stored_memWrite _ _ le_rfl hm, ?_⟩
  rw [exec_push, execPush, plainOut_next h.1 h.2]
  simp only [hb, accessing_eq, readX_written]
  show ScalarResult (.next ((s.writeX sp _).store _ 8 _).finish) _ _ _ _
  rw [store_writeX]
  exact scalarResult_finish { s with mem := _ } sp _

include h hb in
theorem pop_rule : ScalarResult (exec (.pop ⟨b, .x ra, .x sp⟩) s) (s.writeX sp (s.readX sp + 8#64)) (s.ip + 9#64) ra
    (memRead s.mem (s.readX sp) 8) := by
  rw [exec_pop, execPop, plainOut_next h.1 h.2]
  simp only [hb, accessing_eq]
  exact scalarResult_finish_of (State.writeX_ip ..) ra _

include h hm in
theorem pushPair_rule : ∃ m m', Stored s.mem m (if sp = 0#5 then 0#64 else s.readX sp - 16#64) 8 (s.readX rb) ∧
    Stored m m' ((if sp = 0#5 then 0#64 else s.readX sp - 16#64) + 8#64) 8 (s.readX ra) ∧
    ScalarResult (exec (.pushPair ⟨.x rb, .x ra, .x sp⟩) s) { s with mem := m' } (s.ip + 9#64) sp
      (s.readX sp - 16#64) := by
  refine ⟨_, _, stored_memWrite _ _ le_rfl hm, stored_memWrite _ _ le_rfl (memWrite_wf _ _ _ _ hm), ?_⟩
  rw [exec_pushPair, execPushPair, plainOut_next h.1 h.2]
  simp only [accessing_eq, readX_written]
  show ScalarResult (.next (((s.writeX sp _).store _ 8 _).store _ 8 _).finish) _ _ _ _
  rw [store_writeX, store_writeX]
  exact scalarResult_finish { s with mem := _ } sp _

include h in
theorem popPair_rule : ScalarResult (exec (.popPair ⟨.x rb, .x ra, .x sp⟩) s)
    ((s.writeX rb (memRead s.mem (s.readX sp) 8)).writeX ra (memRead s.mem (s.readX sp + 8#64) 8))
    (s.ip + 9#64) sp (s.readX sp + 16#64) := by
  rw [exec_popPair, execPopPair, plainOut_next h.1 h.2]
  simp only [accessing_eq]
  exact scalarResult_finish_of (by rw [State.writeX_ip, State.writeX_ip]) sp _

/-- LINK reads the stack pointer again after it has written the frame pointer, which may be the same register. -/
theorem readX_linked (t : State) (fp : BitVec 5) (a : Word) :
    ((t.writeX sp a).writeX fp (if sp = 0#5 then 0#64 else a)).readX sp = if sp = 0#5 then 0#64 else a := by
  rw [State.readX_writeX]
  split
  next => rfl
  next => exact readX_written t sp a

include h hm in
theorem link_rule (k : BitVec 16) : ∃ m, Stored s.mem m (if sp = 0#5 then 0#64 else s.readX sp - 8#64) 8 (s.readX ra) ∧
    ScalarResult (exec (.link ⟨k, .x ra, .x sp⟩) s)
      (State.writeX { s with mem := m } ra (if sp = 0#5 then 0#64 else s.readX sp - 8#64)) (s.ip + 9#64) sp
      ((if sp = 0#5 then 0#64 else s.readX sp - 8#64) - k.setWidth 64) := by
  refine ⟨_, stored_memWrite _ _ le_rfl hm, ?_⟩
  rw [exec_link, execLink, plainOut_next h.1 h.2]
  simp only [accessing_eq, readX_written]
  show ScalarResult (.next ((((s.writeX sp _).store _ 8 _).writeX ra _).writeX sp
    ((((s.writeX sp _).store _ 8 _).writeX ra _).readX sp - k.setWidth 64)).finish) _ _ _ _
  rw [store_writeX, readX_linked, writeX_over]
  exact scalarResult_finish_of (State.writeX_ip ..) sp _

include h in
theorem unlink_rule : ScalarResult (exec (.unlink ⟨.x ra, .x sp⟩) s)
    (s.writeX ra (memRead s.mem (if sp = 0#5 then 0#64 else s.readX ra) 8)) (s.ip + 9#64) sp
    ((if sp = 0#5 then 0#64 else s.readX ra) + 8#64) := by
  rw [exec_unlink, execUnlink, plainOut_next h.1 h.2]
  simp only [accessing_eq, readX_written]
  rw [writeX_over]
  exact scalarResult_finish_of (State.writeX_ip ..) sp _

end

/-- Settles O57: the accepted type codes by the rules above. -/
theorem stackOperations : Obligations.StackOperations := by
  rintro s ⟨b, a, t⟩ ⟨k, a', t'⟩ ⟨a'', t''⟩ h hm
  refine ⟨?single, ?pair, ?link, ?unlink⟩
  case single =>
    rw [scalarSource_eq _ s b 0]
    cases hb : b.legal false with
    | false => exact ⟨unimplemented_plainOut (by simp only [hb]), unimplemented_plainOut (by simp only [hb])⟩
    | true =>
      cases a with
      | v ra => exact ⟨unimplemented_plainOut (by simp only [hb]), unimplemented_plainOut (by simp only [hb])⟩
      | x ra =>
        cases t with
        | v sp => exact ⟨unimplemented_plainOut (by simp only [hb]), unimplemented_plainOut (by simp only [hb])⟩
        | x sp => exact ⟨push_rule h hb hm ra sp, pop_rule h hb ra sp⟩
  case pair =>
    cases b with
    | imm c => exact ⟨unimplemented_plainOut rfl, unimplemented_plainOut rfl⟩
    | v rb => exact ⟨unimplemented_plainOut rfl, unimplemented_plainOut rfl⟩
    | x rb =>
      cases a with
      | v ra => exact ⟨unimplemented_plainOut rfl, unimplemented_plainOut rfl⟩
      | x ra =>
        cases t with
        | v sp => exact ⟨unimplemented_plainOut rfl, unimplemented_plainOut rfl⟩
        | x sp => exact ⟨pushPair_rule h hm rb ra sp, popPair_rule h rb ra sp⟩
  case link =>
    cases a' with
    | v fp => exact unimplemented_plainOut rfl
    | x fp =>
      cases t' with
      | v sp => exact unimplemented_plainOut rfl
      | x sp => exact link_rule h hm fp sp k
  case unlink =>
    cases a'' with
    | v fp => exact unimplemented_plainOut rfl
    | x fp =>
      cases t'' with
      | v sp => exact unimplemented_plainOut rfl
      | x sp => exact unlink_rule h fp sp

end Sys2Proof.Machine
end

section
/-! SUPPORT. The vector loads and stores, plain and compressed (44 R441 to R445, 47 R640 to R644). -/

namespace Sys2Proof.Machine

/-! ### The operands of STRIDE -/

theorem strideMask_eq (s : State) : s.strideMask = (transferMask s, transferZ s) := by
  unfold State.strideMask transferMask transferZ
  cases s.mods.stride with
  | none => rfl
  | some st =>
    simp only [getLsbD_extract_bit]
    split <;> rfl

theorem strided_eq (s : State) (base : Word) :
    strided s base = s.strideValue.map fun c y => base + c * BitVec.ofNat 64 y := by
  unfold strided State.strideValue
  cases s.mods.stride with
  | none =>
    refine congrArg some (funext fun y => ?_)
    show base = base + 0#64 * BitVec.ofNat 64 y
    rw [BitVec.zero_mul, BitVec.add_zero]
  | some st =>
    cases hc : st.c with
    | x r => simp only [hc, scalarSource]
    | v r => simp only [hc, scalarSource]
    | imm c =>
      simp only [hc, scalarSource]
      rfl

theorem indexed_eq (s : State) (base : Word) :
    indexed s base = s.strideIndex.map fun idx e => base + idx[e]?.getD 0#64 := by
  unfold indexed State.strideIndex
  cases s.mods.stride with
  | none =>
    refine congrArg some (funext fun e => ?_)
    show base = base + (Vector.replicate 64 0#64)[e]?.getD 0#64
    rw [Vector.getElem?_replicate]
    split
    · exact (BitVec.add_zero base).symm
    · exact (BitVec.add_zero base).symm
  | some st => cases hc : st.c <;> simp only [hc] <;> rfl

theorem elementBytes_eq (f4 : BitVec 4) : elementBytes f4 = elementSize f4 := (elementSize_eq f4).symm

theorem getElem?_getD_fin (idx : VReg) (e : Fin 64) : idx[e.val]?.getD 0#64 = idx[e] := by
  rw [Vector.getElem?_eq_getElem e.isLt]
  rfl

/-! ### Loads -/

/-- Element `e` of the target of a vector load from the addresses `ea`: packed or in place, and packed by the place or
by the element that is active there. -/
def loadedElement (s : State) (n : Nat) (packed byElement : Bool) (ea : Nat → Word) (rt : BitVec 5) (e : Fin 64) : Word :=
  if packed then
    match (activeBelow s (transferMask s))[e.val]? with
    | some k => loaded (!transferZ s) n s.mem (ea (if byElement then k.val else e.val))
    | none => if e.val < s.vl.toNat ∧ transferZ s = true then 0#64 else (s.readV rt)[e]
  else if e.val < s.vl.toNat then
    if (transferMask s).getLsbD e.val then loaded (!transferZ s) n s.mem (ea e.val)
    else if transferZ s then 0#64 else (s.readV rt)[e]
  else (s.readV rt)[e]

theorem loadElements_result (s : State) (n : Nat) {ea : Fin 64 → Word} {ea' : Nat → Word} (hea : ∀ e, ea e = ea' e.val)
    (byElement : Bool) (rt : BitVec 5) : VectorResult (loadElements n ea rt s) s (s.ip + 9#64) rt
      (loadedElement s n false byElement ea' rt) := by
  unfold loadElements
  simp only [accessing_eq, strideMask_eq]
  refine (vectorResult_finish ..).congr fun e => ?_
  simp only [hea]
  exact merge_all ..

theorem loadCompressed_result (s : State) (n : Nat) {ea : Fin 64 → Nat → Word} {ea' : Nat → Word} {byElement : Bool}
    (hea : ∀ e y, ea e y = ea' (if byElement then e.val else y)) (rt : BitVec 5) :
    VectorResult (loadCompressed n ea rt s) s (s.ip + 9#64) rt (loadedElement s n true byElement ea' rt) := by
  unfold loadCompressed
  simp only [accessing_eq, strideMask_eq]
  refine (vectorResult_finish ..).congr fun e => ?_
  have hlist : s.activeList (transferMask s) = activeBelow s (transferMask s) := rfl
  rw [getElem_fillFrom, hlist, List.getElem?_map, List.getElem?_zipIdx, loadedElement, if_pos rfl]
  cases (activeBelow s (transferMask s))[e.val]? with
  | none => rfl
  | some k =>
    simp only [Option.map_some, Nat.zero_add, hea]
    rfl

/-- A vector load is its body under legal type codes. -/
theorem load_row {s : State} (h : s.mods.brmod = none) {i : Instr} {f4 : BitVec 4} {o : LdD}
    {body : Nat → Word → BitVec 5 → Out} (hi : exec i s = vload f4 o body s)
    {address : Word → Option (Nat → Word)} {packed byElement : Bool}
    (hbody : ∀ n base rt, match address base with
      | none => Unimplemented (body n base rt) s
      | some ea => VectorResult (body n base rt) s (s.ip + 9#64) rt (loadedElement s n packed byElement ea rt)) :
    match elementBytes f4, o.a, o.t with
    | some n, .x ra, .v rt =>
      match address (s.readX ra + s.displacement o.disp) with
      | none => Unimplemented (exec i s) s
      | some ea => VectorResult (exec i s) s (s.ip + 9#64) rt (loadedElement s n packed byElement ea rt)
    | _, _, _ => Unimplemented (exec i s) s := by
  rw [hi, elementBytes_eq, vload, plainOut_next h (modsLegal_true s)]
  cases elementSize f4 with
  | none => exact unimplemented_raised s
  | some n =>
    cases o.a with
    | v ra => exact unimplemented_raised s
    | x ra =>
      cases o.t with
      | x rt => exact unimplemented_raised s
      | v rt => exact hbody n _ rt

section
variable {s : State} {n : Nat} {base : Word} {packed byElement : Bool} {rt : BitVec 5}

theorem withStride_load {body : Word → Out}
    (hbody : ∀ c, VectorResult (body c) s (s.ip + 9#64) rt
      (loadedElement s n packed byElement (fun y => base + c * BitVec.ofNat 64 y) rt)) :
    match strided s base with
    | none => Unimplemented (withStride s body) s
    | some ea => VectorResult (withStride s body) s (s.ip + 9#64) rt (loadedElement s n packed byElement ea rt) := by
  rw [strided_eq, withStride]
  cases s.strideValue with
  | none => exact unimplemented_raised s
  | some c => exact hbody c

theorem withIndex_load {body : VReg → Out}
    (hbody : ∀ idx : VReg, VectorResult (body idx) s (s.ip + 9#64) rt
      (loadedElement s n packed byElement (fun e => base + idx[e]?.getD 0#64) rt)) :
    match indexed s base with
    | none => Unimplemented (withIndex s body) s
    | some ea => VectorResult (withIndex s body) s (s.ip + 9#64) rt (loadedElement s n packed byElement ea rt) := by
  rw [indexed_eq, withIndex]
  cases s.strideIndex with
  | none => exact unimplemented_raised s
  | some idx => exact hbody idx

end

/-- Settles O58: two bodies, each under the stride and under the index. -/
theorem vectorLoads : Obligations.VectorLoads := by
  intro s f4 o h
  have hidx (idx : VReg) (base : Word) (e : Fin 64) : base + idx[e] = base + idx[e.val]?.getD 0#64 := by
    rw [getElem?_getD_fin]
  simp only [List.forall_mem_cons, List.not_mem_nil, false_implies, implies_true, and_true]
  exact ⟨
    load_row (packed := false) (byElement := false) (address := strided s) h rfl fun n _ rt =>
      withStride_load fun _ => loadElements_result s n (fun _ => rfl) false rt,
    load_row (packed := false) (byElement := false) (address := indexed s) h rfl fun n base rt =>
      withIndex_load fun idx => loadElements_result s n (hidx idx base) false rt,
    load_row (packed := true) (byElement := false) (address := strided s) h rfl fun n _ rt =>
      withStride_load fun _ => loadCompressed_result s n (fun _ _ => rfl) rt,
    load_row (packed := true) (byElement := true) (address := indexed s) h rfl fun n base rt =>
      withIndex_load fun idx => loadCompressed_result s n (fun e _ => hidx idx base e) rt⟩

/-! ### Stores -/

theorem storedAll_foldl {n : Nat} (hn : n ≤ 8) (l : List (Word × Word)) {m : List Host.Cell}
    (hm : Memory.wf m = true) : storedAll n m l (l.foldl (fun m p => memWrite m p.1 n p.2) m) := by
  induction l generalizing m with
  | nil => rfl
  | cons p r ih => exact ⟨_, stored_memWrite p.1 p.2 hn hm, ih (memWrite_wf _ _ _ _ hm)⟩

/-- The stores of a vector: the items, for a source from `rb` and the addresses `ea`. -/
def storeItems (s : State) (packed : Bool) (ea : Nat → Word) (rb : BitVec 5) : List (Word × Word) :=
  if packed then (activeBelow s (transferMask s)).zipIdx.map fun p => (ea p.2, (s.readV rb)[p.1])
  else (List.finRange 64).filterMap fun e =>
    if e.val < s.vl.toNat then
      if (transferMask s).getLsbD e.val then some (ea e.val, (s.readV rb)[e])
      else if transferZ s then some (ea e.val, 0#64) else none
    else none

/-- What a vector store answers: its items are stored, and a packed store under z clears what it stored. -/
def VectorStored (r : Out) (s : State) (n : Nat) (packed : Bool) (ea : Nat → Word) (rb : BitVec 5) : Prop :=
  ∃ m, storedAll n s.mem (storeItems s packed ea rb) m ∧
    VectorResult r { s with mem := m } (s.ip + 9#64) rb fun e =>
      if packed = true ∧ transferZ s = true ∧ e ∈ activeBelow s (transferMask s) then 0#64 else (s.readV rb)[e]

theorem vectorResult_kept (s : State) (rb : BitVec 5) :
    VectorResult (.next s.finish) s (s.ip + 9#64) rb fun e => (s.readV rb)[e] :=
  ⟨_, rfl, rfl, rfl, fun q e => by split <;> simp_all, rfl⟩

theorem mem_activeBelow (s : State) (m : Mask) (e : Fin 64) : e ∈ activeBelow s m ↔ s.active m e = true := by
  rw [activeBelow, List.mem_filter]
  exact and_iff_right (List.mem_finRange e)

section
variable {s : State} (hm : Memory.wf s.mem = true) {n : Nat} (hn : n ≤ 8) (rb : BitVec 5) {ea' : Nat → Word}
include hm hn

theorem storeElements_result {ea : Fin 64 → Word} (hea : ∀ e, ea e = ea' e.val) :
    VectorStored (storeElements n ea rb s) s n false ea' rb := by
  have hitems : (List.finRange 64).filterMap (storeItem s ea rb) = storeItems s false ea' rb := by
    unfold storeItem storeItems
    simp only [strideMask_eq, hea]
    rfl
  rw [storeElements_eq, hitems]
  exact ⟨_, storedAll_foldl hn _ hm, (vectorResult_kept _ rb).congr fun e => (if_neg fun h => Bool.false_ne_true h.1).symm⟩

theorem storeCompressed_result {ea : Fin 64 → Nat → Word} (hea : ∀ e y, ea e y = ea' y) :
    VectorStored (storeCompressed n ea rb s) s n true ea' rb := by
  have hfold : (activeBelow s (transferMask s)).zipIdx.foldl
      (fun t p => t.storeFrom s (ea p.1 p.2) n (s.readV rb)[p.1]) s =
      { s with mem := (storeItems s true ea' rb).foldl (fun m p => memWrite m p.1 n p.2) s.mem } := by
    rw [storeItems, if_pos rfl, List.foldl_map]
    simp only [hea]
    exact foldl_store n (fun p : Fin 64 × Nat => ea' p.2) (fun p => (s.readV rb)[p.1]) _ s
  have hlist : s.activeList (transferMask s) = activeBelow s (transferMask s) := rfl
  unfold storeCompressed
  simp only [accessing_eq, strideMask_eq, hlist, hfold]
  refine ⟨_, storedAll_foldl hn _ hm, ?_⟩
  cases hz : transferZ s with
  | false => exact (vectorResult_kept _ rb).congr fun e => (if_neg fun h => Bool.false_ne_true h.2.1).symm
  | true =>
    refine (vectorResult_finish { s with mem := _ } rb _).congr fun e => ?_
    simp only [mem_activeBelow, Fin.getElem_fin, Vector.getElem_ofFn, true_and]

end

theorem store_row {s : State} (h : s.mods.brmod = none) {i : Instr} {f4 : BitVec 4} {o : StD}
    {body : Nat → Word → BitVec 5 → Out} (hi : exec i s = vstore f4 o body s)
    {address : Word → Option (Nat → Word)} {packed : Bool}
    (hbody : ∀ n base rb, n ≤ 8 → match address base with
      | none => Unimplemented (body n base rb) s
      | some ea => VectorStored (body n base rb) s n packed ea rb) :
    match elementBytes f4, o.a, o.b with
    | some n, .x ra, .v rb =>
      match address (s.readX ra + s.displacement o.disp) with
      | none => Unimplemented (exec i s) s
      | some ea => VectorStored (exec i s) s n packed ea rb
    | _, _, _ => Unimplemented (exec i s) s := by
  rw [hi, elementBytes_eq, vstore, plainOut_next h (modsLegal_true s)]
  cases hsize : elementSize f4 with
  | none => exact unimplemented_raised s
  | some n =>
    cases o.a with
    | v ra => exact unimplemented_raised s
    | x ra =>
      cases o.b with
      | x rb => exact unimplemented_raised s
      | imm c => exact unimplemented_raised s
      | v rb => exact hbody n _ rb (elementSize_le hsize)

section
variable {s : State} {n : Nat} {base : Word} {packed : Bool} {rb : BitVec 5}

theorem withStride_store {body : Word → Out}
    (hbody : ∀ c, VectorStored (body c) s n packed (fun y => base + c * BitVec.ofNat 64 y) rb) :
    match strided s base with
    | none => Unimplemented (withStride s body) s
    | some ea => VectorStored (withStride s body) s n packed ea rb := by
  rw [strided_eq, withStride]
  cases s.strideValue with
  | none => exact unimplemented_raised s
  | some c => exact hbody c

theorem withIndex_store {body : VReg → Out}
    (hbody : ∀ idx : VReg, VectorStored (body idx) s n packed (fun e => base + idx[e]?.getD 0#64) rb) :
    match indexed s base with
    | none => Unimplemented (withIndex s body) s
    | some ea => VectorStored (withIndex s body) s n packed ea rb := by
  rw [indexed_eq, withIndex]
  cases s.strideIndex with
  | none => exact unimplemented_raised s
  | some idx => exact hbody idx

end

/-- Settles O59: two bodies, each under the stride and under the index. -/
theorem vectorStores : Obligations.VectorStores := by
  intro s f4 o h hm
  have hidx (idx : VReg) (base : Word) (e : Fin 64) : base + idx[e] = base + idx[e.val]?.getD 0#64 := by
    rw [getElem?_getD_fin]
  refine List.forall_mem_cons.2 ⟨?_, List.forall_mem_cons.2 ⟨?_, List.forall_mem_cons.2 ⟨?_,
    List.forall_mem_singleton.2 ?_⟩⟩⟩
  · exact store_row (packed := false) (address := strided s) h rfl fun n _ rb hn =>
      withStride_store fun _ => storeElements_result hm hn rb fun _ => rfl
  · exact store_row (packed := false) (address := indexed s) h rfl fun n base rb hn =>
      withIndex_store fun idx => storeElements_result hm hn rb (hidx idx base)
  · exact store_row (packed := true) (address := strided s) h rfl fun n _ rb hn =>
      withStride_store fun _ => storeCompressed_result hm hn rb fun _ _ => rfl
  · exact store_row (packed := true) (address := indexed s) h rfl fun n base rb hn =>
      withIndex_store fun idx => storeCompressed_result (ea := fun _ y => base + idx.toList.getD y 0#64) hm hn
        rb fun _ y => by rw [toList_getD]

end Sys2Proof.Machine
end

section
/-! SUPPORT. The 20-bit moves, operations, loads, stores, branches and jumps (48 R679 to R696). -/

namespace Sys2Proof.Machine

/-! ### Values -/

theorem addi_amount (r : BitVec 5) (k : BitVec 7) :
    (if r = spReg then k.signExtend 64 <<< 3 else k.signExtend 64 : Word) =
      if r = 30#5 then k.signExtend 64 * 8#64 else k.signExtend 64 := by
  rw [scaleEight]
  rfl

theorem shiftLeft_exact (a : Word) (n : BitVec 5) : a <<< n.toNat = BitVec.ofNat 64 (a.toNat * 2 ^ n.toNat) := by
  apply BitVec.eq_of_toNat_eq
  rw [BitVec.toNat_shiftLeft, BitVec.toNat_ofNat, Nat.shiftLeft_eq]

theorem shiftRight_exact (a : Word) (n : BitVec 5) : a >>> n.toNat = BitVec.ofNat 64 (a.toNat / 2 ^ n.toNat) := by
  apply BitVec.eq_of_toNat_eq
  rw [BitVec.toNat_ushiftRight, BitVec.toNat_ofNat, Nat.shiftRight_eq_div_pow]
  exact (Nat.mod_eq_of_lt ((Nat.div_le_self ..).trans_lt a.isLt)).symm

section
variable {s : State} (h : s.mods.start = none)
include h

/-! ### Shapes -/

theorem short_writes (r : BitVec 5) {a b : Word} (hab : a = b) :
    ScalarResult (short s (s.writeX r a).finishShort) s (s.ip + 5#64) r b := by
  rw [short_next h, hab]
  exact scalarResult_finishShort s r b

theorem short_jumps (l : BitVec 2) (a : Word) :
    ScalarResult (short s ((s.writeX (linkReg l) (s.ip + 5#64)).jump a)) s a (l.setWidth 5) (s.ip + 5#64) := by
  rw [short_next h]
  exact scalarResult_jump ..

theorem shortLoad_result (base : BitVec 5) (k : BitVec 7) (r : BitVec 5) :
    ScalarResult (shortLoad base k r s) s (s.ip + 5#64) r (memRead s.mem (s.readX base + k.signExtend 64 * 8#64) 8) := by
  rw [shortLoad, shortOut_next h, accessing_eq, ← scaleEight]
  exact scalarResult_finishShort s r _

theorem shortStore_result (hm : Memory.wf s.mem = true) (base : BitVec 5) (k : BitVec 7) (r : BitVec 5) :
    StoreResult (shortStore base k r s) s (s.ip + 5#64) (s.readX base + k.signExtend 64 * 8#64) 8 (s.readX r) := by
  rw [shortStore, shortOut_next h, accessing_eq, ← scaleEight]
  exact storeResult_jump _ _ _ le_rfl hm

theorem shortBranch_result (k : BitVec 7) (taken : Bool) :
    OnlyIp (shortBranch k taken s) s (if taken then s.ip + k.signExtend 64 else s.ip + 5#64) := by
  rw [shortBranch, short_next h]
  exact onlyIp_jump ..

theorem short_rows (r q : BitVec 5) (k : BitVec 7) (n : BitVec 5) :
    ∀ row ∈ ([(.cMov q r, s.readX q), (.cAdd q r, s.readX r + s.readX q), (.cAnd q r, s.readX r &&& s.readX q),
        (.cAddi k r, s.readX r + (if r = 30#5 then k.signExtend 64 * 8#64 else k.signExtend 64)),
        (.cAndi k r, s.readX r &&& (0x1ffffffffffffff#57 ++ k)), (.cOri k r, s.readX r ||| (0#57 ++ k)),
        (.cLdi k r, k.signExtend 64), (.cSlli n r, BitVec.ofNat 64 ((s.readX r).toNat * 2 ^ n.toNat)),
        (.cSrli n r, BitVec.ofNat 64 ((s.readX r).toNat / 2 ^ n.toNat)),
        (.cSrai n r, BitVec.ofInt 64 ((s.readX r).toInt / 2 ^ n.toNat)),
        (.cLdoFp k r, memRead s.mem (s.readX 29#5 + k.signExtend 64 * 8#64) 8),
        (.cLdoSp k r, memRead s.mem (s.readX 30#5 + k.signExtend 64 * 8#64) 8)] : List (Instr × Word)),
      ScalarResult (exec row.1 s) s (s.ip + 5#64) r row.2 := by
  simp only [List.forall_mem_cons, List.not_mem_nil, false_implies, implies_true, and_true]
  exact ⟨short_writes h r rfl, short_writes h r rfl, short_writes h r rfl,
    short_writes h r (congrArg (s.readX r + ·) (addi_amount r k)), short_writes h r rfl,
    short_writes h r (congrArg (s.readX r ||| ·) (zero_append k).symm), short_writes h r rfl,
    short_writes h r (shiftLeft_exact _ n), short_writes h r (shiftRight_exact _ n),
    short_writes h r (sshiftRight_eq_ofInt _ n.toNat), shortLoad_result h fpReg k r, shortLoad_result h spReg k r⟩

end

/-- Settles O60: each instruction by its shape. -/
theorem compressedInstructions : Obligations.CompressedInstructions := by
  intro s r q k n d l h hm
  refine ⟨short_rows h r q k n, shortStore_result h hm fpReg k r, shortStore_result h hm spReg k r, ?_, ?_,
    short_jumps h l (s.readX r), short_jumps h l (s.ip + d.signExtend 64)⟩
  · have := shortBranch_result h k (s.readX r == 0#64)
    simp only [beq_iff_eq] at this
    exact this
  · have := shortBranch_result h k (s.readX r != 0#64)
    simp only [bne_iff_ne, ne_eq, ite_not] at this
    exact this

end Sys2Proof.Machine
end
